-- ==== Sys2Proof/Word.lean ====
section
/-! DEFINITION. The word types of the cs151 CORE execute block (00_scope.md R9, R10; 30_encoding.md R46). -/

namespace Sys2Proof

/-- A 32-bit word: operand, result, immediate, pc and address (XLEN, R9). -/
abbrev Word := BitVec 32

/-- A memory byte (R28). -/
abbrev Byte := BitVec 8

/-- A register index of a bundle (R46); the block never interprets one (R13). -/
abbrev RegIdx := BitVec 5

/-- A 64-bit performance counter (COUNTER_WIDTH, R9). -/
abbrev Counter := BitVec 64

/-- A 2-bit saturating counter of the BHT (BHT_COUNTER_WIDTH, R9). -/
abbrev SatCounter := BitVec 2

end Sys2Proof
end

