-- ==== Sys2Proof/Config.lean ====
section
/-! DEFINITION. The implementation parameters of 00_scope.md R9, the two platform parameters I19 and I20, and the
free values the spec leaves open (I14). A Config is fixed from reset (R133, R150). -/

namespace Sys2Proof

/-- PREDICTOR_KIND (R9, R133). -/
inductive PredictorKind where
  | gshare
  | fallthrough
deriving DecidableEq, Repr

/-- REDIRECT_POLICY (R9, R85, R86). -/
inductive RedirectPolicy where
  | fallthroughCompare
  | predictionCompare
deriving DecidableEq, Repr

/-- BTB_INSTALL_INDEX (R9, R129). -/
inductive BtbInstallIndex where
  | xorHistory
  | pcOnly
deriving DecidableEq, Repr

/-- Whether instruction space and data memory are one memory (R28 item 4, I20). -/
inductive InstrSpace where
  | unified
  | separate
deriving DecidableEq, Repr

/-- The parameters of R9, and the platform parameters `instrSpace` (I20) and `jalSteering` (I19). -/
structure Config where
  /-- HIST_BITS, H. -/
  histBits : Nat
  /-- BTB_INDEX_BITS, B. -/
  btbIndexBits : Nat
  /-- BHT_INIT. -/
  bhtInit : SatCounter
  /-- PREDICTOR_KIND. -/
  predictor : PredictorKind
  /-- REDIRECT_POLICY. -/
  redirectPolicy : RedirectPolicy
  /-- BTB_INSTALL_INDEX. -/
  btbInstall : BtbInstallIndex
  /-- MMIO_BASE. -/
  mmioBase : Word
  /-- MMIO_SIZE. -/
  mmioSize : Nat
  /-- CSR_INERT_SET. -/
  csrInert : List Word
  /-- CYCLE_LO_ADDR. -/
  cycleLo : Word
  /-- CYCLE_HI_ADDR. -/
  cycleHi : Word
  /-- INSTRET_LO_ADDR. -/
  instretLo : Word
  /-- INSTRET_HI_ADDR. -/
  instretHi : Word
  /-- RESET_PC. -/
  resetPc : Word
  /-- One memory for instructions and data, or two (I20). -/
  instrSpace : InstrSpace
  /-- Fetch or decode steers the fetch stream to a JAL's target (R90, R157, I19). -/
  jalSteering : Bool
deriving DecidableEq, Repr

/-- The four counter addresses (R116). -/
def Config.counterAddrs (c : Config) : List Word := [c.cycleLo, c.cycleHi, c.instretLo, c.instretHi]

/-- The bounds of R9: 1 <= H <= 30, 1 <= B <= 29, MMIO_SIZE >= 1, MMIO_BASE + MMIO_SIZE <= 2^32, four distinct
counter addresses outside CSR_INERT_SET. -/
def Config.wf (c : Config) : Bool :=
  decide (1 ≤ c.histBits) && decide (c.histBits ≤ 30) &&
  decide (1 ≤ c.btbIndexBits) && decide (c.btbIndexBits ≤ 29) &&
  decide (1 ≤ c.mmioSize) && decide (c.mmioBase.toNat + c.mmioSize ≤ 2 ^ 32) &&
  decide c.counterAddrs.Nodup && c.counterAddrs.all (fun a => !c.csrInert.contains a)

/-- The values the test vectors use (95_test_vectors.md section 0), with RESET_PC = 0 as its programs have it. R9 calls
them suggested. DESIGN CHOICE (log 1), unsafe for a statement about `State.reset` alone. -/
def Config.suggested : Config where
  histBits := 4
  btbIndexBits := 4
  bhtInit := 0#2
  predictor := .gshare
  redirectPolicy := .fallthroughCompare
  btbInstall := .xorHistory
  mmioBase := 0xF0000000#32
  mmioSize := 0x100
  csrInert := [0x340#32]
  cycleLo := 0xC00#32
  cycleHi := 0xC80#32
  instretLo := 0xC02#32
  instretHi := 0xC82#32
  resetPc := 0#32
  instrSpace := .unified
  jalSteering := true

/-- How many CycleTicks fall before the n-th Execute transaction (R121, R161, I14 "any value"). A free value: nothing
constrains it (log 10). -/
opaque Config.cycleTicks : Nat → Nat

/-- How many RetireTicks fall before the n-th Execute transaction (R121, R161, I14). A free value (log 10). -/
opaque Config.retireTicks : Nat → Nat

end Sys2Proof
end

