-- ==== Sys2Proof/Syntax.lean ====
section
/-! DEFINITION. The instructions: the decoded bundle of 30_encoding.md R45 and R46, and one constructor of `Instr` for each
row of spec/opcode_table.json. -/

namespace Sys2Proof

/-- The Decoded Instruction bundle with the field widths of R46. Selectors are raw codes, because the block itself refuses
the reserved ones (R53). -/
structure Bundle where
  aluOp : BitVec 4
  brOp : BitVec 4
  func3 : BitVec 3
  op1Pc : Bool
  op1Inv : Bool
  op2Imm : Bool
  isLoad : Bool
  isStore : Bool
  isCsr : Bool
  rd : RegIdx
  rs1 : RegIdx
  rs2 : RegIdx
  imm : Word
deriving DecidableEq, Repr

/-- What fetch and decode hold for one instruction: a 64-bit packed bundle (R46), or a 32-bit RV32 word that the
informative decoder maps to one (R44, R57). -/
inductive Fetched where
  | bundle (w : BitVec 64)
  | word (w : BitVec 32)
deriving DecidableEq, Repr

/-- One constructor per row of spec/opcode_table.json. A bundle row fixes the fields its match and mask name and leaves every
other field of the bundle it carries free; the rows overlap (one ALU row, one branch row and one class row match each bundle,
R55), and `Instr.wf` says which of them is the bundle's canonical name (log 6). An RV32 row carries its word's fields (R56). -/
inductive Instr where
  /-- ALU.NONE (R65). -/
  | aluNone (b : Bundle)
  /-- ALU.ADD (R66). -/
  | aluAdd (b : Bundle)
  /-- ALU.SUB (R67). -/
  | aluSub (b : Bundle)
  /-- ALU.AND (R68). -/
  | aluAnd (b : Bundle)
  /-- ALU.OR (R69). -/
  | aluOr (b : Bundle)
  /-- ALU.XOR (R70). -/
  | aluXor (b : Bundle)
  /-- ALU.SLL (R71). -/
  | aluSll (b : Bundle)
  /-- ALU.SRL (R72). -/
  | aluSrl (b : Bundle)
  /-- ALU.SRA (R73). -/
  | aluSra (b : Bundle)
  /-- ALU.LTI (R74). -/
  | aluLti (b : Bundle)
  /-- ALU.LTU (R75). -/
  | aluLtu (b : Bundle)
  /-- ALU.MUL (R76). -/
  | aluMul (b : Bundle)
  /-- ALU.MULH (R77). -/
  | aluMulh (b : Bundle)
  /-- ALU.MULHSU (R78). -/
  | aluMulhsu (b : Bundle)
  /-- ALU.MULHU (R79). -/
  | aluMulhu (b : Bundle)
  /-- ALU.RESERVED_15 (R80). -/
  | aluReserved15 (b : Bundle)
  /-- BR.NONE (R91). -/
  | brNone (b : Bundle)
  /-- BR.JAL (R92). -/
  | brJal (b : Bundle)
  /-- BR.JALR (R93). -/
  | brJalr (b : Bundle)
  /-- BR.BEQ (R94). -/
  | brBeq (b : Bundle)
  /-- BR.BNE (R95). -/
  | brBne (b : Bundle)
  /-- BR.BLT (R96). -/
  | brBlt (b : Bundle)
  /-- BR.BGE (R97). -/
  | brBge (b : Bundle)
  /-- BR.BLTU (R98). -/
  | brBltu (b : Bundle)
  /-- BR.BGEU (R99). -/
  | brBgeu (b : Bundle)
  /-- BR.RESERVED_9 (R100). -/
  | brReserved9 (b : Bundle)
  /-- BR.RESERVED_10 (R100). -/
  | brReserved10 (b : Bundle)
  /-- BR.RESERVED_11 (R100). -/
  | brReserved11 (b : Bundle)
  /-- BR.RESERVED_12 (R100). -/
  | brReserved12 (b : Bundle)
  /-- BR.RESERVED_13 (R100). -/
  | brReserved13 (b : Bundle)
  /-- BR.RESERVED_14 (R100). -/
  | brReserved14 (b : Bundle)
  /-- BR.RESERVED_15 (R100). -/
  | brReserved15 (b : Bundle)
  /-- MEM.LB (R104). -/
  | memLb (b : Bundle)
  /-- MEM.LH (R105). -/
  | memLh (b : Bundle)
  /-- MEM.LW (R106). -/
  | memLw (b : Bundle)
  /-- MEM.LOAD_RESERVED_3 (R103). -/
  | memLoadReserved3 (b : Bundle)
  /-- MEM.LBU (R107). -/
  | memLbu (b : Bundle)
  /-- MEM.LHU (R108). -/
  | memLhu (b : Bundle)
  /-- MEM.LOAD_F3_6 (R109). -/
  | memLoadF36 (b : Bundle)
  /-- MEM.LOAD_RESERVED_7 (R103). -/
  | memLoadReserved7 (b : Bundle)
  /-- MEM.SB (R110). -/
  | memSb (b : Bundle)
  /-- MEM.SH (R111). -/
  | memSh (b : Bundle)
  /-- MEM.SW (R112). -/
  | memSw (b : Bundle)
  /-- MEM.STORE_RESERVED_3 (R103). -/
  | memStoreReserved3 (b : Bundle)
  /-- CSR.ACCESS (R119). -/
  | csrAccess (b : Bundle)
  /-- PASS (R101). -/
  | pass (b : Bundle)
  /-- ILLEGAL.LOAD_STORE (R52). -/
  | illegalLoadStore (b : Bundle)
  /-- ILLEGAL.LOAD_CSR (R52). -/
  | illegalLoadCsr (b : Bundle)
  /-- ILLEGAL.STORE_CSR (R52). -/
  | illegalStoreCsr (b : Bundle)
  /-- ILLEGAL.LOAD_BRANCH (R52). -/
  | illegalLoadBranch (b : Bundle)
  /-- ILLEGAL.STORE_BRANCH (R52). -/
  | illegalStoreBranch (b : Bundle)
  /-- ILLEGAL.CSR_BRANCH (R52). -/
  | illegalCsrBranch (b : Bundle)
  /-- LUI, an RV32 word (R57, R66). -/
  | lui (rd : RegIdx) (imm : BitVec 20)
  /-- AUIPC, an RV32 word (R57, R66). -/
  | auipc (rd : RegIdx) (imm : BitVec 20)
  /-- JAL, an RV32 word (R57, R92). -/
  | jal (rd : RegIdx) (imm : BitVec 21)
  /-- JALR, an RV32 word (R57, R93). -/
  | jalr (rd rs1 : RegIdx) (imm : BitVec 12)
  /-- BEQ, an RV32 word (R57, R94). -/
  | beq (rs1 rs2 : RegIdx) (imm : BitVec 13)
  /-- BNE, an RV32 word (R57, R95). -/
  | bne (rs1 rs2 : RegIdx) (imm : BitVec 13)
  /-- BLT, an RV32 word (R57, R96). -/
  | blt (rs1 rs2 : RegIdx) (imm : BitVec 13)
  /-- BGE, an RV32 word (R57, R97). -/
  | bge (rs1 rs2 : RegIdx) (imm : BitVec 13)
  /-- BLTU, an RV32 word (R57, R98). -/
  | bltu (rs1 rs2 : RegIdx) (imm : BitVec 13)
  /-- BGEU, an RV32 word (R57, R99). -/
  | bgeu (rs1 rs2 : RegIdx) (imm : BitVec 13)
  /-- LB, an RV32 word (R57, R104). -/
  | lb (rd rs1 : RegIdx) (imm : BitVec 12)
  /-- LH, an RV32 word (R57, R105). -/
  | lh (rd rs1 : RegIdx) (imm : BitVec 12)
  /-- LW, an RV32 word (R57, R106). -/
  | lw (rd rs1 : RegIdx) (imm : BitVec 12)
  /-- LBU, an RV32 word (R57, R107). -/
  | lbu (rd rs1 : RegIdx) (imm : BitVec 12)
  /-- LHU, an RV32 word (R57, R108). -/
  | lhu (rd rs1 : RegIdx) (imm : BitVec 12)
  /-- SB, an RV32 word (R57, R110). -/
  | sb (rs1 rs2 : RegIdx) (imm : BitVec 12)
  /-- SH, an RV32 word (R57, R111). -/
  | sh (rs1 rs2 : RegIdx) (imm : BitVec 12)
  /-- SW, an RV32 word (R57, R112). -/
  | sw (rs1 rs2 : RegIdx) (imm : BitVec 12)
  /-- ADDI, an RV32 word (R57, R66). -/
  | addi (rd rs1 : RegIdx) (imm : BitVec 12)
  /-- SLTI, an RV32 word (R57, R74). -/
  | slti (rd rs1 : RegIdx) (imm : BitVec 12)
  /-- SLTIU, an RV32 word (R57, R75). -/
  | sltiu (rd rs1 : RegIdx) (imm : BitVec 12)
  /-- XORI, an RV32 word (R57, R70). -/
  | xori (rd rs1 : RegIdx) (imm : BitVec 12)
  /-- ORI, an RV32 word (R57, R69). -/
  | ori (rd rs1 : RegIdx) (imm : BitVec 12)
  /-- ANDI, an RV32 word (R57, R68). -/
  | andi (rd rs1 : RegIdx) (imm : BitVec 12)
  /-- SLLI, an RV32 word (R57, R71). -/
  | slli (rd rs1 : RegIdx) (shamt : BitVec 5)
  /-- SRLI, an RV32 word (R57, R72). -/
  | srli (rd rs1 : RegIdx) (shamt : BitVec 5)
  /-- SRAI, an RV32 word (R57, R73). -/
  | srai (rd rs1 : RegIdx) (shamt : BitVec 5)
  /-- ADD, an RV32 word (R57, R66). -/
  | add (rd rs1 rs2 : RegIdx)
  /-- SUB, an RV32 word (R57, R67). -/
  | sub (rd rs1 rs2 : RegIdx)
  /-- SLL, an RV32 word (R57, R71). -/
  | sll (rd rs1 rs2 : RegIdx)
  /-- SLT, an RV32 word (R57, R74). -/
  | slt (rd rs1 rs2 : RegIdx)
  /-- SLTU, an RV32 word (R57, R75). -/
  | sltu (rd rs1 rs2 : RegIdx)
  /-- XOR, an RV32 word (R57, R70). -/
  | xor (rd rs1 rs2 : RegIdx)
  /-- SRL, an RV32 word (R57, R72). -/
  | srl (rd rs1 rs2 : RegIdx)
  /-- SRA, an RV32 word (R57, R73). -/
  | sra (rd rs1 rs2 : RegIdx)
  /-- OR, an RV32 word (R57, R69). -/
  | or (rd rs1 rs2 : RegIdx)
  /-- AND, an RV32 word (R57, R68). -/
  | and (rd rs1 rs2 : RegIdx)
  /-- MUL, an RV32 word (R57, R76). -/
  | mul (rd rs1 rs2 : RegIdx)
  /-- MULH, an RV32 word (R57, R77). -/
  | mulh (rd rs1 rs2 : RegIdx)
  /-- MULHSU, an RV32 word (R57, R78). -/
  | mulhsu (rd rs1 rs2 : RegIdx)
  /-- MULHU, an RV32 word (R57, R79). -/
  | mulhu (rd rs1 rs2 : RegIdx)
  /-- FENCE, an RV32 word (R57, R40). -/
  | fence (fm pred succ : BitVec 4) (rs1 rd : RegIdx)
  /-- CSRRW, an RV32 word (R57, R119). -/
  | csrrw (rd rs1 : RegIdx) (csr : BitVec 12)
  /-- CSRRS, an RV32 word (R57, R119). -/
  | csrrs (rd rs1 : RegIdx) (csr : BitVec 12)
  /-- CSRRC, an RV32 word (R57, R119). -/
  | csrrc (rd rs1 : RegIdx) (csr : BitVec 12)
  /-- CSRRWI, an RV32 word (R57, R119). -/
  | csrrwi (rd : RegIdx) (zimm : BitVec 5) (csr : BitVec 12)
  /-- CSRRSI, an RV32 word (R57, R119). -/
  | csrrsi (rd : RegIdx) (zimm : BitVec 5) (csr : BitVec 12)
  /-- CSRRCI, an RV32 word (R57, R119). -/
  | csrrci (rd : RegIdx) (zimm : BitVec 5) (csr : BitVec 12)
  /-- DIV, an RV32 word with no bundle (R58). -/
  | div (rd rs1 rs2 : RegIdx)
  /-- DIVU, an RV32 word with no bundle (R58). -/
  | divu (rd rs1 rs2 : RegIdx)
  /-- REM, an RV32 word with no bundle (R58). -/
  | rem (rd rs1 rs2 : RegIdx)
  /-- REMU, an RV32 word with no bundle (R58). -/
  | remu (rd rs1 rs2 : RegIdx)
  /-- ECALL, an RV32 word with no bundle (R58). -/
  | ecall
  /-- EBREAK, an RV32 word with no bundle (R58). -/
  | ebreak
  /-- FENCE.I, an RV32 word with no bundle (R58). -/
  | fenceI (rd rs1 : RegIdx) (imm : BitVec 12)
deriving DecidableEq, Repr

end Sys2Proof
end

