-- ==== Sys2Proof/WellFormed.lean ====
section
/-! DEFINITION. Which terms of `Instr` are well-formed: those that name a bundle by its canonical row (log 6), and RV32 terms whose
branch and jump offsets are even (R56). -/

namespace Sys2Proof

/-- No class flag is set. -/
def Bundle.noClass (b : Bundle) : Bool := !b.isLoad && !b.isStore && !b.isCsr

/-- The two conditions of R52: at most one class flag, and a class flag only with `br_op` = NONE. -/
def Bundle.classesLegal (b : Bundle) : Bool :=
  !(b.isLoad && b.isStore) && !(b.isLoad && b.isCsr) && !(b.isStore && b.isCsr) && (b.noClass || b.brOp == 0#4)

/-- The ALU selector is not the reserved code (R53). -/
def Bundle.aluLegal (b : Bundle) : Bool := b.aluOp != 15#4

/-- The ALU row `k` names a bundle with no class flag and no branch op. -/
def Bundle.isAluRow (k : BitVec 4) (b : Bundle) : Bool := b.aluOp == k && b.brOp == 0#4 && b.noClass

/-- The branch row `k` names a bundle with no class flag and a legal ALU selector. -/
def Bundle.isBrRow (k : BitVec 4) (b : Bundle) : Bool := b.brOp == k && b.noClass && b.aluLegal

/-- The load row `f`. -/
def Bundle.isLoadRow (f : BitVec 3) (b : Bundle) : Bool :=
  b.func3 == f && b.brOp == 0#4 && b.isLoad && !b.isStore && !b.isCsr && b.aluLegal

/-- The store row `f`; `func3[2]` is free (R113). -/
def Bundle.isStoreRow (f : BitVec 2) (b : Bundle) : Bool :=
  b.func3.extractLsb' 0 2 == f && b.brOp == 0#4 && !b.isLoad && b.isStore && !b.isCsr && b.aluLegal

/-- The CSR row. -/
def Bundle.isCsrRow (b : Bundle) : Bool := b.brOp == 0#4 && !b.isLoad && !b.isStore && b.isCsr && b.aluLegal

/-- Well-formed terms. A bundle with no class flag and both selectors NONE matches ALU.NONE, BR.NONE and PASS alike; its
ignored `func3` (R53) picks the name: 0, 1, or any other (DESIGN CHOICE, log 6). -/
def Instr.wf : Instr → Bool
  | .aluNone b => b.isAluRow 0#4 && b.func3 == 0#3
  | .aluAdd b => b.isAluRow 1#4
  | .aluSub b => b.isAluRow 2#4
  | .aluAnd b => b.isAluRow 3#4
  | .aluOr b => b.isAluRow 4#4
  | .aluXor b => b.isAluRow 5#4
  | .aluSll b => b.isAluRow 6#4
  | .aluSrl b => b.isAluRow 7#4
  | .aluSra b => b.isAluRow 8#4
  | .aluLti b => b.isAluRow 9#4
  | .aluLtu b => b.isAluRow 10#4
  | .aluMul b => b.isAluRow 11#4
  | .aluMulh b => b.isAluRow 12#4
  | .aluMulhsu b => b.isAluRow 13#4
  | .aluMulhu b => b.isAluRow 14#4
  | .aluReserved15 b => b.aluOp == 15#4 && b.classesLegal
  | .brNone b => b.isAluRow 0#4 && b.func3 == 1#3
  | .brJal b => b.isBrRow 1#4
  | .brJalr b => b.isBrRow 2#4
  | .brBeq b => b.isBrRow 3#4
  | .brBne b => b.isBrRow 4#4
  | .brBlt b => b.isBrRow 5#4
  | .brBge b => b.isBrRow 6#4
  | .brBltu b => b.isBrRow 7#4
  | .brBgeu b => b.isBrRow 8#4
  | .brReserved9 b => b.isBrRow 9#4
  | .brReserved10 b => b.isBrRow 10#4
  | .brReserved11 b => b.isBrRow 11#4
  | .brReserved12 b => b.isBrRow 12#4
  | .brReserved13 b => b.isBrRow 13#4
  | .brReserved14 b => b.isBrRow 14#4
  | .brReserved15 b => b.isBrRow 15#4
  | .memLb b => b.isLoadRow 0#3
  | .memLh b => b.isLoadRow 1#3
  | .memLw b => b.isLoadRow 2#3
  | .memLoadReserved3 b => b.isLoadRow 3#3
  | .memLbu b => b.isLoadRow 4#3
  | .memLhu b => b.isLoadRow 5#3
  | .memLoadF36 b => b.isLoadRow 6#3
  | .memLoadReserved7 b => b.isLoadRow 7#3
  | .memSb b => b.isStoreRow 0#2
  | .memSh b => b.isStoreRow 1#2
  | .memSw b => b.isStoreRow 2#2
  | .memStoreReserved3 b => b.isStoreRow 3#2
  | .csrAccess b => b.isCsrRow
  | .pass b => b.isAluRow 0#4 && b.func3 != 0#3 && b.func3 != 1#3
  | .illegalLoadStore b => b.isLoad && b.isStore
  | .illegalLoadCsr b => b.isLoad && !b.isStore && b.isCsr
  | .illegalStoreCsr b => !b.isLoad && b.isStore && b.isCsr
  | .illegalLoadBranch b => b.isLoad && !b.isStore && !b.isCsr && b.brOp != 0#4
  | .illegalStoreBranch b => !b.isLoad && b.isStore && !b.isCsr && b.brOp != 0#4
  | .illegalCsrBranch b => !b.isLoad && !b.isStore && b.isCsr && b.brOp != 0#4
  | .lui _ _ => true
  | .auipc _ _ => true
  | .jal _ imm => !imm.getLsbD 0
  | .jalr _ _ _ => true
  | .beq _ _ imm => !imm.getLsbD 0
  | .bne _ _ imm => !imm.getLsbD 0
  | .blt _ _ imm => !imm.getLsbD 0
  | .bge _ _ imm => !imm.getLsbD 0
  | .bltu _ _ imm => !imm.getLsbD 0
  | .bgeu _ _ imm => !imm.getLsbD 0
  | .lb _ _ _ => true
  | .lh _ _ _ => true
  | .lw _ _ _ => true
  | .lbu _ _ _ => true
  | .lhu _ _ _ => true
  | .sb _ _ _ => true
  | .sh _ _ _ => true
  | .sw _ _ _ => true
  | .addi _ _ _ => true
  | .slti _ _ _ => true
  | .sltiu _ _ _ => true
  | .xori _ _ _ => true
  | .ori _ _ _ => true
  | .andi _ _ _ => true
  | .slli _ _ _ => true
  | .srli _ _ _ => true
  | .srai _ _ _ => true
  | .add _ _ _ => true
  | .sub _ _ _ => true
  | .sll _ _ _ => true
  | .slt _ _ _ => true
  | .sltu _ _ _ => true
  | .xor _ _ _ => true
  | .srl _ _ _ => true
  | .sra _ _ _ => true
  | .or _ _ _ => true
  | .and _ _ _ => true
  | .mul _ _ _ => true
  | .mulh _ _ _ => true
  | .mulhsu _ _ _ => true
  | .mulhu _ _ _ => true
  | .fence _ _ _ _ _ => true
  | .csrrw _ _ _ => true
  | .csrrs _ _ _ => true
  | .csrrc _ _ _ => true
  | .csrrwi _ _ _ => true
  | .csrrsi _ _ _ => true
  | .csrrci _ _ _ => true
  | .div _ _ _ => true
  | .divu _ _ _ => true
  | .rem _ _ _ => true
  | .remu _ _ _ => true
  | .ecall => true
  | .ebreak => true
  | .fenceI _ _ _ => true

end Sys2Proof
end

