-- ==== Sys2Proof/Decode.lean ====
section
/-! DEFINITION. The decoder and the encoder: the packed bundle of 30_encoding.md R46, the RV32 formats of R56 and the rows of
R57 and R58. Decoding is total and rejects by name. -/

namespace Sys2Proof

/-- Why a fetched item is no instruction (R58): the informative decoder refuses it by name. -/
inductive DecodeError where
  /-- Fewer than four bytes were given. Raised by `decodeBytes`; safe. -/
  | truncated
  /-- The low two bits are not 11. Raised by `decodeWord`; safe. -/
  | compressed
  /-- No row of R57 or R58's table has this opcode (the A, F and D extensions among them). Raised by `decodeWord`; safe. -/
  | opcode
  /-- The opcode's rows have no such funct3 and funct7. Raised by `decodeWord`; safe. -/
  | funct
  /-- A system word that is no CSR access, ECALL or EBREAK (MRET, SRET and WFI are such). Raised by `decodeWord`; safe. -/
  | system
deriving DecidableEq, Repr

/-! ### The packed bundle (R46) -/

/-- The 64-bit packed form of a bundle (R46). -/
def Bundle.pack (b : Bundle) : BitVec 64 := BitVec.ofNat 64
  (b.aluOp.toNat + 2 ^ 4 * b.brOp.toNat + 2 ^ 8 * b.func3.toNat + 2 ^ 11 * b.op1Pc.toNat + 2 ^ 12 * b.op1Inv.toNat
    + 2 ^ 13 * b.op2Imm.toNat + 2 ^ 14 * b.isLoad.toNat + 2 ^ 15 * b.isStore.toNat + 2 ^ 16 * b.isCsr.toNat
    + 2 ^ 17 * b.rd.toNat + 2 ^ 22 * b.rs1.toNat + 2 ^ 27 * b.rs2.toNat + 2 ^ 32 * b.imm.toNat)

/-- The fields of a packed bundle (R46). -/
def Bundle.unpack (w : BitVec 64) : Bundle where
  aluOp := w.extractLsb' 0 4
  brOp := w.extractLsb' 4 4
  func3 := w.extractLsb' 8 3
  op1Pc := w.extractLsb' 11 1 == 1#1
  op1Inv := w.extractLsb' 12 1 == 1#1
  op2Imm := w.extractLsb' 13 1 == 1#1
  isLoad := w.extractLsb' 14 1 == 1#1
  isStore := w.extractLsb' 15 1 == 1#1
  isCsr := w.extractLsb' 16 1 == 1#1
  rd := w.extractLsb' 17 5
  rs1 := w.extractLsb' 22 5
  rs2 := w.extractLsb' 27 5
  imm := w.extractLsb' 32 32

/-! ### The fields a row fixes -/

/-- An ALU row fixes `alu_op` (R47). -/
def Bundle.asAlu (k : BitVec 4) (b : Bundle) : Bundle := { b with aluOp := k }

/-- A branch row fixes `br_op` (R48). -/
def Bundle.asBr (k : BitVec 4) (b : Bundle) : Bundle := { b with brOp := k }

/-- A load row fixes the class, `br_op` = NONE and `func3` (R49, R52). -/
def Bundle.asLoad (f : BitVec 3) (b : Bundle) : Bundle :=
  { b with brOp := 0#4, func3 := f, isLoad := true, isStore := false, isCsr := false }

/-- A store row fixes the class, `br_op` = NONE and `func3[1:0]`; `func3[2]` is ignored (R113). -/
def Bundle.asStore (f : BitVec 2) (b : Bundle) : Bundle :=
  { b with brOp := 0#4, func3 := (b.func3 &&& 4#3) ||| f.setWidth 3, isLoad := false, isStore := true, isCsr := false }

/-- The CSR row fixes the class and `br_op` = NONE (R119). -/
def Bundle.asCsr (b : Bundle) : Bundle := { b with brOp := 0#4, isLoad := false, isStore := false, isCsr := true }

/-- The PASS row fixes that no class flag is set (R101). -/
def Bundle.asPass (b : Bundle) : Bundle := { b with isLoad := false, isStore := false, isCsr := false }

/-- The load rows by `func3` (R49). -/
def Bundle.classifyLoad (b : Bundle) : Instr :=
  match b.func3.toNat with
  | 0 => .memLb b
  | 1 => .memLh b
  | 2 => .memLw b
  | 3 => .memLoadReserved3 b
  | 4 => .memLbu b
  | 5 => .memLhu b
  | 6 => .memLoadF36 b
  | _ => .memLoadReserved7 b

/-- The store rows by `func3[1:0]` (R49). -/
def Bundle.classifyStore (b : Bundle) : Instr :=
  match (b.func3.extractLsb' 0 2).toNat with
  | 0 => .memSb b
  | 1 => .memSh b
  | 2 => .memSw b
  | _ => .memStoreReserved3 b

/-- The ALU rows by `alu_op` (R47), for a bundle with no class flag and no branch op. -/
def Bundle.classifyAlu (b : Bundle) : Instr :=
  match b.aluOp.toNat with
  | 0 => if b.func3 == 0#3 then .aluNone b else if b.func3 == 1#3 then .brNone b else .pass b
  | 1 => .aluAdd b
  | 2 => .aluSub b
  | 3 => .aluAnd b
  | 4 => .aluOr b
  | 5 => .aluXor b
  | 6 => .aluSll b
  | 7 => .aluSrl b
  | 8 => .aluSra b
  | 9 => .aluLti b
  | 10 => .aluLtu b
  | 11 => .aluMul b
  | 12 => .aluMulh b
  | 13 => .aluMulhsu b
  | 14 => .aluMulhu b
  | _ => .aluReserved15 b

/-- The branch rows by `br_op` (R48), for a bundle with no class flag. -/
def Bundle.classifyBr (b : Bundle) : Instr :=
  match b.brOp.toNat with
  | 1 => .brJal b
  | 2 => .brJalr b
  | 3 => .brBeq b
  | 4 => .brBne b
  | 5 => .brBlt b
  | 6 => .brBge b
  | 7 => .brBltu b
  | 8 => .brBgeu b
  | 9 => .brReserved9 b
  | 10 => .brReserved10 b
  | 11 => .brReserved11 b
  | 12 => .brReserved12 b
  | 13 => .brReserved13 b
  | 14 => .brReserved14 b
  | _ => .brReserved15 b

/-- The canonical row of a bundle (log 6): an ill-formed class first, then the reserved selectors in the order of R139, then
the class row, the branch row, the ALU row. -/
def Bundle.classify (b : Bundle) : Instr :=
  if b.isLoad && b.isStore then .illegalLoadStore b
  else if b.isLoad && b.isCsr then .illegalLoadCsr b
  else if b.isStore && b.isCsr then .illegalStoreCsr b
  else if b.isLoad && b.brOp != 0#4 then .illegalLoadBranch b
  else if b.isStore && b.brOp != 0#4 then .illegalStoreBranch b
  else if b.isCsr && b.brOp != 0#4 then .illegalCsrBranch b
  else if b.aluOp == 15#4 then .aluReserved15 b
  else if b.isLoad then b.classifyLoad
  else if b.isStore then b.classifyStore
  else if b.isCsr then .csrAccess b
  else if b.brOp == 0#4 then b.classifyAlu
  else b.classifyBr

/-! ### RV32 words (R56) -/

/-- Format R. -/
def encR (funct7 : BitVec 7) (rs2 rs1 : RegIdx) (funct3 : BitVec 3) (rd : RegIdx) (opcode : BitVec 7) : BitVec 32 :=
  BitVec.ofNat 32 (opcode.toNat + 2 ^ 7 * rd.toNat + 2 ^ 12 * funct3.toNat + 2 ^ 15 * rs1.toNat + 2 ^ 20 * rs2.toNat
    + 2 ^ 25 * funct7.toNat)

/-- Format I. -/
def encI (imm : BitVec 12) (rs1 : RegIdx) (funct3 : BitVec 3) (rd : RegIdx) (opcode : BitVec 7) : BitVec 32 :=
  BitVec.ofNat 32 (opcode.toNat + 2 ^ 7 * rd.toNat + 2 ^ 12 * funct3.toNat + 2 ^ 15 * rs1.toNat + 2 ^ 20 * imm.toNat)

/-- Format S. -/
def encS (imm : BitVec 12) (rs2 rs1 : RegIdx) (funct3 : BitVec 3) (opcode : BitVec 7) : BitVec 32 :=
  encR (imm.extractLsb' 5 7) rs2 rs1 funct3 (imm.extractLsb' 0 5) opcode

/-- Format B: imm[12], imm[10:5] in 31:25 and imm[4:1], imm[11] in 11:7. -/
def encB (imm : BitVec 13) (rs2 rs1 : RegIdx) (funct3 : BitVec 3) (opcode : BitVec 7) : BitVec 32 :=
  encR (BitVec.ofNat 7 ((imm.extractLsb' 5 6).toNat + 2 ^ 6 * (imm.extractLsb' 12 1).toNat)) rs2 rs1 funct3
    (BitVec.ofNat 5 ((imm.extractLsb' 11 1).toNat + 2 * (imm.extractLsb' 1 4).toNat)) opcode

/-- Format U: imm[31:12] in 31:12. -/
def encU (imm : BitVec 20) (rd : RegIdx) (opcode : BitVec 7) : BitVec 32 :=
  BitVec.ofNat 32 (opcode.toNat + 2 ^ 7 * rd.toNat + 2 ^ 12 * imm.toNat)

/-- Format J: imm[20], imm[10:1], imm[11], imm[19:12] in 31, 30:21, 20, 19:12. -/
def encJ (imm : BitVec 21) (rd : RegIdx) (opcode : BitVec 7) : BitVec 32 :=
  encU (BitVec.ofNat 20 ((imm.extractLsb' 12 8).toNat + 2 ^ 8 * (imm.extractLsb' 11 1).toNat
    + 2 ^ 9 * (imm.extractLsb' 1 10).toNat + 2 ^ 19 * (imm.extractLsb' 20 1).toNat)) rd opcode

/-- The field 6:0. -/
def opcodeOf (w : BitVec 32) : BitVec 7 := w.extractLsb' 0 7
/-- The field 11:7. -/
def rdOf (w : BitVec 32) : RegIdx := w.extractLsb' 7 5
/-- The field 14:12. -/
def funct3Of (w : BitVec 32) : BitVec 3 := w.extractLsb' 12 3
/-- The field 19:15. -/
def rs1Of (w : BitVec 32) : RegIdx := w.extractLsb' 15 5
/-- The field 24:20. -/
def rs2Of (w : BitVec 32) : RegIdx := w.extractLsb' 20 5
/-- The field 31:25. -/
def funct7Of (w : BitVec 32) : BitVec 7 := w.extractLsb' 25 7
/-- The I immediate's bits, and the CSR address field. -/
def immIOf (w : BitVec 32) : BitVec 12 := w.extractLsb' 20 12
/-- The S immediate's bits. -/
def immSOf (w : BitVec 32) : BitVec 12 := BitVec.ofNat 12 ((rdOf w).toNat + 2 ^ 5 * (funct7Of w).toNat)
/-- The B immediate's bits; bit 0 is 0. -/
def immBOf (w : BitVec 32) : BitVec 13 := BitVec.ofNat 13 (2 * (w.extractLsb' 8 4).toNat + 2 ^ 5 * (w.extractLsb' 25 6).toNat
  + 2 ^ 11 * (w.extractLsb' 7 1).toNat + 2 ^ 12 * (w.extractLsb' 31 1).toNat)
/-- The U immediate's bits 31:12. -/
def immUOf (w : BitVec 32) : BitVec 20 := w.extractLsb' 12 20
/-- The J immediate's bits; bit 0 is 0. -/
def immJOf (w : BitVec 32) : BitVec 21 := BitVec.ofNat 21 (2 * (w.extractLsb' 21 10).toNat + 2 ^ 11 * (w.extractLsb' 20 1).toNat
  + 2 ^ 12 * (w.extractLsb' 12 8).toNat + 2 ^ 20 * (w.extractLsb' 31 1).toNat)

/-- Opcode 0x03: the loads. -/
def decodeLoad (w : BitVec 32) : Except DecodeError Instr :=
  match (funct3Of w).toNat with
  | 0 => .ok (.lb (rdOf w) (rs1Of w) (immIOf w))
  | 1 => .ok (.lh (rdOf w) (rs1Of w) (immIOf w))
  | 2 => .ok (.lw (rdOf w) (rs1Of w) (immIOf w))
  | 4 => .ok (.lbu (rdOf w) (rs1Of w) (immIOf w))
  | 5 => .ok (.lhu (rdOf w) (rs1Of w) (immIOf w))
  | _ => .error .funct

/-- Opcode 0x23: the stores. -/
def decodeStore (w : BitVec 32) : Except DecodeError Instr :=
  match (funct3Of w).toNat with
  | 0 => .ok (.sb (rs1Of w) (rs2Of w) (immSOf w))
  | 1 => .ok (.sh (rs1Of w) (rs2Of w) (immSOf w))
  | 2 => .ok (.sw (rs1Of w) (rs2Of w) (immSOf w))
  | _ => .error .funct

/-- Opcode 0x63: the conditional branches. -/
def decodeBranch (w : BitVec 32) : Except DecodeError Instr :=
  match (funct3Of w).toNat with
  | 0 => .ok (.beq (rs1Of w) (rs2Of w) (immBOf w))
  | 1 => .ok (.bne (rs1Of w) (rs2Of w) (immBOf w))
  | 4 => .ok (.blt (rs1Of w) (rs2Of w) (immBOf w))
  | 5 => .ok (.bge (rs1Of w) (rs2Of w) (immBOf w))
  | 6 => .ok (.bltu (rs1Of w) (rs2Of w) (immBOf w))
  | 7 => .ok (.bgeu (rs1Of w) (rs2Of w) (immBOf w))
  | _ => .error .funct

/-- Opcode 0x13: the register-immediate operations. The shifts need their funct7 as well. -/
def decodeOpImm (w : BitVec 32) : Except DecodeError Instr :=
  match (funct3Of w).toNat with
  | 0 => .ok (.addi (rdOf w) (rs1Of w) (immIOf w))
  | 1 => if funct7Of w == 0x00#7 then .ok (.slli (rdOf w) (rs1Of w) (rs2Of w)) else .error .funct
  | 2 => .ok (.slti (rdOf w) (rs1Of w) (immIOf w))
  | 3 => .ok (.sltiu (rdOf w) (rs1Of w) (immIOf w))
  | 4 => .ok (.xori (rdOf w) (rs1Of w) (immIOf w))
  | 5 =>
    if funct7Of w == 0x00#7 then .ok (.srli (rdOf w) (rs1Of w) (rs2Of w))
    else if funct7Of w == 0x20#7 then .ok (.srai (rdOf w) (rs1Of w) (rs2Of w))
    else .error .funct
  | 6 => .ok (.ori (rdOf w) (rs1Of w) (immIOf w))
  | _ => .ok (.andi (rdOf w) (rs1Of w) (immIOf w))

/-- Opcode 0x33, funct7 0x00. -/
def decodeOpBase (w : BitVec 32) : Except DecodeError Instr :=
  match (funct3Of w).toNat with
  | 0 => .ok (.add (rdOf w) (rs1Of w) (rs2Of w))
  | 1 => .ok (.sll (rdOf w) (rs1Of w) (rs2Of w))
  | 2 => .ok (.slt (rdOf w) (rs1Of w) (rs2Of w))
  | 3 => .ok (.sltu (rdOf w) (rs1Of w) (rs2Of w))
  | 4 => .ok (.xor (rdOf w) (rs1Of w) (rs2Of w))
  | 5 => .ok (.srl (rdOf w) (rs1Of w) (rs2Of w))
  | 6 => .ok (.or (rdOf w) (rs1Of w) (rs2Of w))
  | _ => .ok (.and (rdOf w) (rs1Of w) (rs2Of w))

/-- Opcode 0x33, funct7 0x20: SUB and SRA. -/
def decodeOpAlt (w : BitVec 32) : Except DecodeError Instr :=
  match (funct3Of w).toNat with
  | 0 => .ok (.sub (rdOf w) (rs1Of w) (rs2Of w))
  | 5 => .ok (.sra (rdOf w) (rs1Of w) (rs2Of w))
  | _ => .error .funct

/-- Opcode 0x33, funct7 0x01: the multiplies, and the divides that have no bundle (R58). -/
def decodeOpMul (w : BitVec 32) : Except DecodeError Instr :=
  match (funct3Of w).toNat with
  | 0 => .ok (.mul (rdOf w) (rs1Of w) (rs2Of w))
  | 1 => .ok (.mulh (rdOf w) (rs1Of w) (rs2Of w))
  | 2 => .ok (.mulhsu (rdOf w) (rs1Of w) (rs2Of w))
  | 3 => .ok (.mulhu (rdOf w) (rs1Of w) (rs2Of w))
  | 4 => .ok (.div (rdOf w) (rs1Of w) (rs2Of w))
  | 5 => .ok (.divu (rdOf w) (rs1Of w) (rs2Of w))
  | 6 => .ok (.rem (rdOf w) (rs1Of w) (rs2Of w))
  | _ => .ok (.remu (rdOf w) (rs1Of w) (rs2Of w))

/-- Opcode 0x33 by funct7. -/
def decodeOp (w : BitVec 32) : Except DecodeError Instr :=
  if funct7Of w == 0x00#7 then decodeOpBase w
  else if funct7Of w == 0x20#7 then decodeOpAlt w
  else if funct7Of w == 0x01#7 then decodeOpMul w
  else .error .funct

/-- Opcode 0x0F: FENCE, and FENCE.I which has no bundle (R58). -/
def decodeMiscMem (w : BitVec 32) : Except DecodeError Instr :=
  match (funct3Of w).toNat with
  | 0 => .ok (.fence (w.extractLsb' 28 4) (w.extractLsb' 24 4) (w.extractLsb' 20 4) (rs1Of w) (rdOf w))
  | 1 => .ok (.fenceI (rdOf w) (rs1Of w) (immIOf w))
  | _ => .error .funct

/-- Opcode 0x73: the CSR accesses, and ECALL and EBREAK which have no bundle (R58). -/
def decodeSystem (w : BitVec 32) : Except DecodeError Instr :=
  match (funct3Of w).toNat with
  | 0 => if w == 0x00000073#32 then .ok .ecall else if w == 0x00100073#32 then .ok .ebreak else .error .system
  | 1 => .ok (.csrrw (rdOf w) (rs1Of w) (immIOf w))
  | 2 => .ok (.csrrs (rdOf w) (rs1Of w) (immIOf w))
  | 3 => .ok (.csrrc (rdOf w) (rs1Of w) (immIOf w))
  | 5 => .ok (.csrrwi (rdOf w) (rs1Of w) (immIOf w))
  | 6 => .ok (.csrrsi (rdOf w) (rs1Of w) (immIOf w))
  | 7 => .ok (.csrrci (rdOf w) (rs1Of w) (immIOf w))
  | _ => .error .system

/-- The informative decoder's reading of an RV32 word (R57, R58). -/
def decodeWord (w : BitVec 32) : Except DecodeError Instr :=
  if w.extractLsb' 0 2 != 3#2 then .error .compressed
  else match (opcodeOf w).toNat with
  | 0x37 => .ok (.lui (rdOf w) (immUOf w))
  | 0x17 => .ok (.auipc (rdOf w) (immUOf w))
  | 0x6F => .ok (.jal (rdOf w) (immJOf w))
  | 0x67 => if funct3Of w == 0#3 then .ok (.jalr (rdOf w) (rs1Of w) (immIOf w)) else .error .funct
  | 0x63 => decodeBranch w
  | 0x03 => decodeLoad w
  | 0x23 => decodeStore w
  | 0x13 => decodeOpImm w
  | 0x33 => decodeOp w
  | 0x0F => decodeMiscMem w
  | 0x73 => decodeSystem w
  | _ => .error .opcode

/-- The decoder, total on every fetched item. Every 64-bit word is a bundle of some row. -/
def decode : Fetched → Except DecodeError Instr
  | .bundle w => .ok (Bundle.unpack w).classify
  | .word w => decodeWord w

/-- Four bytes as an RV32 word, the byte at the lowest address first (R31, R56). -/
def wordOfBytes (b0 b1 b2 b3 : Byte) : BitVec 32 :=
  BitVec.ofNat 32 (b0.toNat + 2 ^ 8 * b1.toNat + 2 ^ 16 * b2.toNat + 2 ^ 24 * b3.toNat)

/-- The four bytes of an RV32 word, the byte at the lowest address first (R31, R56). -/
def bytesOfWord (w : BitVec 32) : List Byte :=
  [w.extractLsb' 0 8, w.extractLsb' 8 8, w.extractLsb' 16 8, w.extractLsb' 24 8]

/-- The RV32 instruction at the head of a byte sequence, and the bytes after it. -/
def decodeBytes : List Byte → Except DecodeError (Instr × List Byte)
  | b0 :: b1 :: b2 :: b3 :: rest =>
    match decodeWord (wordOfBytes b0 b1 b2 b3) with
    | .ok i => .ok (i, rest)
    | .error e => .error e
  | _ => .error .truncated

/-- The encoder: the packed bundle of a bundle row (R46 to R49), the RV32 word of an RV32 row (R56, R57). -/
def Instr.encode : Instr → Fetched
  | .aluNone b => .bundle (b.asAlu 0#4).pack
  | .aluAdd b => .bundle (b.asAlu 1#4).pack
  | .aluSub b => .bundle (b.asAlu 2#4).pack
  | .aluAnd b => .bundle (b.asAlu 3#4).pack
  | .aluOr b => .bundle (b.asAlu 4#4).pack
  | .aluXor b => .bundle (b.asAlu 5#4).pack
  | .aluSll b => .bundle (b.asAlu 6#4).pack
  | .aluSrl b => .bundle (b.asAlu 7#4).pack
  | .aluSra b => .bundle (b.asAlu 8#4).pack
  | .aluLti b => .bundle (b.asAlu 9#4).pack
  | .aluLtu b => .bundle (b.asAlu 10#4).pack
  | .aluMul b => .bundle (b.asAlu 11#4).pack
  | .aluMulh b => .bundle (b.asAlu 12#4).pack
  | .aluMulhsu b => .bundle (b.asAlu 13#4).pack
  | .aluMulhu b => .bundle (b.asAlu 14#4).pack
  | .aluReserved15 b => .bundle (b.asAlu 15#4).pack
  | .brNone b => .bundle (b.asBr 0#4).pack
  | .brJal b => .bundle (b.asBr 1#4).pack
  | .brJalr b => .bundle (b.asBr 2#4).pack
  | .brBeq b => .bundle (b.asBr 3#4).pack
  | .brBne b => .bundle (b.asBr 4#4).pack
  | .brBlt b => .bundle (b.asBr 5#4).pack
  | .brBge b => .bundle (b.asBr 6#4).pack
  | .brBltu b => .bundle (b.asBr 7#4).pack
  | .brBgeu b => .bundle (b.asBr 8#4).pack
  | .brReserved9 b => .bundle (b.asBr 9#4).pack
  | .brReserved10 b => .bundle (b.asBr 10#4).pack
  | .brReserved11 b => .bundle (b.asBr 11#4).pack
  | .brReserved12 b => .bundle (b.asBr 12#4).pack
  | .brReserved13 b => .bundle (b.asBr 13#4).pack
  | .brReserved14 b => .bundle (b.asBr 14#4).pack
  | .brReserved15 b => .bundle (b.asBr 15#4).pack
  | .memLb b => .bundle (b.asLoad 0#3).pack
  | .memLh b => .bundle (b.asLoad 1#3).pack
  | .memLw b => .bundle (b.asLoad 2#3).pack
  | .memLoadReserved3 b => .bundle (b.asLoad 3#3).pack
  | .memLbu b => .bundle (b.asLoad 4#3).pack
  | .memLhu b => .bundle (b.asLoad 5#3).pack
  | .memLoadF36 b => .bundle (b.asLoad 6#3).pack
  | .memLoadReserved7 b => .bundle (b.asLoad 7#3).pack
  | .memSb b => .bundle (b.asStore 0#2).pack
  | .memSh b => .bundle (b.asStore 1#2).pack
  | .memSw b => .bundle (b.asStore 2#2).pack
  | .memStoreReserved3 b => .bundle (b.asStore 3#2).pack
  | .csrAccess b => .bundle (b.asCsr).pack
  | .pass b => .bundle (b.asPass).pack
  | .illegalLoadStore b => .bundle b.pack
  | .illegalLoadCsr b => .bundle b.pack
  | .illegalStoreCsr b => .bundle b.pack
  | .illegalLoadBranch b => .bundle b.pack
  | .illegalStoreBranch b => .bundle b.pack
  | .illegalCsrBranch b => .bundle b.pack
  | .lui rd imm => .word (encU imm rd 0x37#7)
  | .auipc rd imm => .word (encU imm rd 0x17#7)
  | .jal rd imm => .word (encJ imm rd 0x6F#7)
  | .jalr rd rs1 imm => .word (encI imm rs1 0#3 rd 0x67#7)
  | .beq rs1 rs2 imm => .word (encB imm rs2 rs1 0#3 0x63#7)
  | .bne rs1 rs2 imm => .word (encB imm rs2 rs1 1#3 0x63#7)
  | .blt rs1 rs2 imm => .word (encB imm rs2 rs1 4#3 0x63#7)
  | .bge rs1 rs2 imm => .word (encB imm rs2 rs1 5#3 0x63#7)
  | .bltu rs1 rs2 imm => .word (encB imm rs2 rs1 6#3 0x63#7)
  | .bgeu rs1 rs2 imm => .word (encB imm rs2 rs1 7#3 0x63#7)
  | .lb rd rs1 imm => .word (encI imm rs1 0#3 rd 0x03#7)
  | .lh rd rs1 imm => .word (encI imm rs1 1#3 rd 0x03#7)
  | .lw rd rs1 imm => .word (encI imm rs1 2#3 rd 0x03#7)
  | .lbu rd rs1 imm => .word (encI imm rs1 4#3 rd 0x03#7)
  | .lhu rd rs1 imm => .word (encI imm rs1 5#3 rd 0x03#7)
  | .sb rs1 rs2 imm => .word (encS imm rs2 rs1 0#3 0x23#7)
  | .sh rs1 rs2 imm => .word (encS imm rs2 rs1 1#3 0x23#7)
  | .sw rs1 rs2 imm => .word (encS imm rs2 rs1 2#3 0x23#7)
  | .addi rd rs1 imm => .word (encI imm rs1 0#3 rd 0x13#7)
  | .slti rd rs1 imm => .word (encI imm rs1 2#3 rd 0x13#7)
  | .sltiu rd rs1 imm => .word (encI imm rs1 3#3 rd 0x13#7)
  | .xori rd rs1 imm => .word (encI imm rs1 4#3 rd 0x13#7)
  | .ori rd rs1 imm => .word (encI imm rs1 6#3 rd 0x13#7)
  | .andi rd rs1 imm => .word (encI imm rs1 7#3 rd 0x13#7)
  | .slli rd rs1 shamt => .word (encR 0x00#7 shamt rs1 1#3 rd 0x13#7)
  | .srli rd rs1 shamt => .word (encR 0x00#7 shamt rs1 5#3 rd 0x13#7)
  | .srai rd rs1 shamt => .word (encR 0x20#7 shamt rs1 5#3 rd 0x13#7)
  | .add rd rs1 rs2 => .word (encR 0x00#7 rs2 rs1 0#3 rd 0x33#7)
  | .sub rd rs1 rs2 => .word (encR 0x20#7 rs2 rs1 0#3 rd 0x33#7)
  | .sll rd rs1 rs2 => .word (encR 0x00#7 rs2 rs1 1#3 rd 0x33#7)
  | .slt rd rs1 rs2 => .word (encR 0x00#7 rs2 rs1 2#3 rd 0x33#7)
  | .sltu rd rs1 rs2 => .word (encR 0x00#7 rs2 rs1 3#3 rd 0x33#7)
  | .xor rd rs1 rs2 => .word (encR 0x00#7 rs2 rs1 4#3 rd 0x33#7)
  | .srl rd rs1 rs2 => .word (encR 0x00#7 rs2 rs1 5#3 rd 0x33#7)
  | .sra rd rs1 rs2 => .word (encR 0x20#7 rs2 rs1 5#3 rd 0x33#7)
  | .or rd rs1 rs2 => .word (encR 0x00#7 rs2 rs1 6#3 rd 0x33#7)
  | .and rd rs1 rs2 => .word (encR 0x00#7 rs2 rs1 7#3 rd 0x33#7)
  | .mul rd rs1 rs2 => .word (encR 0x01#7 rs2 rs1 0#3 rd 0x33#7)
  | .mulh rd rs1 rs2 => .word (encR 0x01#7 rs2 rs1 1#3 rd 0x33#7)
  | .mulhsu rd rs1 rs2 => .word (encR 0x01#7 rs2 rs1 2#3 rd 0x33#7)
  | .mulhu rd rs1 rs2 => .word (encR 0x01#7 rs2 rs1 3#3 rd 0x33#7)
  | .fence fm pred succ rs1 rd => .word (encI (BitVec.ofNat 12 (succ.toNat + 2 ^ 4 * pred.toNat + 2 ^ 8 * fm.toNat)) rs1 0#3 rd 0x0F#7)
  | .csrrw rd rs1 csr => .word (encI csr rs1 1#3 rd 0x73#7)
  | .csrrs rd rs1 csr => .word (encI csr rs1 2#3 rd 0x73#7)
  | .csrrc rd rs1 csr => .word (encI csr rs1 3#3 rd 0x73#7)
  | .csrrwi rd zimm csr => .word (encI csr zimm 5#3 rd 0x73#7)
  | .csrrsi rd zimm csr => .word (encI csr zimm 6#3 rd 0x73#7)
  | .csrrci rd zimm csr => .word (encI csr zimm 7#3 rd 0x73#7)
  | .div rd rs1 rs2 => .word (encR 0x01#7 rs2 rs1 4#3 rd 0x33#7)
  | .divu rd rs1 rs2 => .word (encR 0x01#7 rs2 rs1 5#3 rd 0x33#7)
  | .rem rd rs1 rs2 => .word (encR 0x01#7 rs2 rs1 6#3 rd 0x33#7)
  | .remu rd rs1 rs2 => .word (encR 0x01#7 rs2 rs1 7#3 rd 0x33#7)
  | .ecall => .word (0x00000073#32)
  | .ebreak => .word (0x00100073#32)
  | .fenceI rd rs1 imm => .word (encI imm rs1 1#3 rd 0x0F#7)

/-- Whether a word of spec/opcode_table.json, given with no format, is one of its RV32 words. The table's two formats share
their low bits and a table word carries no format mark: more than 32 bits are a bundle; a word whose low two bits are not 11 is a
bundle (R58); of the others a one-byte word below 16 is an ALU row (R47) and the rest are RV32 words (log 7). -/
def tableWordIsRv32 (nbits w : Nat) : Bool :=
  decide (nbits ≤ 32) && (w % 4 == 3) && !(decide (nbits ≤ 8) && decide (w < 16))

/-- The item a table word stands for: an RV32 word, or a packed bundle. -/
def tableItem (nbits w : Nat) : Fetched :=
  if tableWordIsRv32 nbits w then .word (BitVec.ofNat 32 w) else .bundle (BitVec.ofNat 64 w)

/-- The instruction the decoder reads from an instruction whose bits are `w`. An RV32 word is laid out as its four bytes, the
lowest first, and decoded from them; a bundle is a 64-bit value that memory never holds (R44). -/
def decodeTableWord (nbits w : Nat) : Option Instr :=
  match tableItem nbits w with
  | .word v =>
    match decodeBytes (bytesOfWord v) with
    | .ok (i, _) => some i
    | .error _ => none
  | .bundle v =>
    match decode (.bundle v) with
    | .ok i => some i
    | .error _ => none

end Sys2Proof
end

