-- ==== Sys2Proof/Machine/Sparse.lean ====
section
/-! DEFINITION. Finite maps as lists of (key, value) pairs in one canonical form: keys strictly rising, no entry equal to what an
unlisted key reads as. Memory, the BTB, the BHT and the set of modified addresses are held so. -/

namespace Sys2Proof.Machine

/-- What key `k` reads as, `d` being what an unlisted key reads as. -/
def Sparse.get {β : Type} (d : β) (k : Nat) : List (Nat × β) → β
  | [] => d
  | c :: m => if c.1 = k then c.2 else Sparse.get d k m

/-- The map without key `k`. -/
def Sparse.erase {β : Type} (k : Nat) : List (Nat × β) → List (Nat × β)
  | [] => []
  | c :: m => if c.1 = k then Sparse.erase k m else c :: Sparse.erase k m

/-- A new entry put before the first larger key. -/
def Sparse.insert {β : Type} (k : Nat) (v : β) : List (Nat × β) → List (Nat × β)
  | [] => [(k, v)]
  | c :: m => if k < c.1 then (k, v) :: c :: m else c :: Sparse.insert k v m

/-- The map with key `k` reading as `v`; a key that reads as an unlisted one does is not listed. -/
def Sparse.set {β : Type} [DecidableEq β] (d : β) (k : Nat) (v : β) (m : List (Nat × β)) : List (Nat × β) :=
  if v = d then Sparse.erase k m else Sparse.insert k v (Sparse.erase k m)

/-- Every key is at least `lo` and below `bound`, keys rise strictly, and no entry equals `d`. -/
def Sparse.wfFrom {β : Type} [DecidableEq β] (d : β) (bound : Nat) : Nat → List (Nat × β) → Bool
  | _, [] => true
  | lo, c :: m => decide (lo ≤ c.1) && decide (c.1 < bound) && decide (c.2 ≠ d) && Sparse.wfFrom d bound (c.1 + 1) m

/-- The canonical form with keys below `bound`. -/
def Sparse.wf {β : Type} [DecidableEq β] (d : β) (bound : Nat) (m : List (Nat × β)) : Bool := Sparse.wfFrom d bound 0 m

end Sys2Proof.Machine
end

