-- ==== Sys2Proof/Machine/State.lean ====
section
/-! DEFINITION. The machine's state as plain data, the reasons a step can stop, and the state after reset (10_state.md,
70_reset_and_hazards.md R149). -/

namespace Sys2Proof.Machine

/-- The causes of a Fatal (R136). -/
inductive FatalCause where
  | illegalBundle
  | badAluOp
  | badBranchOp
  | badMemWidth
  | csrReadUnmapped
  | csrWriteReadonly
  | csrWriteUnmapped
deriving DecidableEq, Repr

/-- Why the machine stops with a fault. -/
inductive Fault where
  /-- `raise Fatal(c)` (R136, R137): "A model shall represent it as a distinct fault outcome carrying the cause." Raised by an
  Execute transaction that meets an invariant violation. Safe: the spec ends the run here. -/
  | fatal (c : FatalCause)
  /-- A step asked of a block whose `fatal` is 1; `code` is its `fatal_cause` (R25, R137, I9). Raised by `step` and by Execute. Safe:
  the spec gives no step here. -/
  | halted (code : BitVec 4)
deriving DecidableEq, Repr

/-- Why an instruction or a fetch has no meaning. -/
inductive Refusal where
  /-- The instruction has no meaning in this model yet. Raised by `exec`'s refused arms, of which there are none. Safe. -/
  | notModelled (mnemonic : String)
  /-- An RV32 instruction the informative decoder refuses by name, because no bundle exists for it (R58, I23). Raised by the meanings
  of those instructions. Safe. -/
  | noBundle (mnemonic : String)
  /-- A fetched RV32 word that is no row of the table (R58). Raised when the word is to be executed. Safe. -/
  | undecodable (e : DecodeError)
  /-- A fetch at a pc whose bits 1:0 are not 0 (R33, I15). Raised by the fetch. Safe. -/
  | misalignedFetch (pc : Word)
  /-- An instruction at an address stored to since the last flush (R42, R160, I16). Raised when it is to be executed. Safe. -/
  | modifiedInstruction (pc : Word)
deriving DecidableEq, Repr

/-- A BTB entry (R21). The tag's width is 30 - B bits; it is held in a word. -/
structure BtbEntry where
  valid : Bool
  tag : Word
  target : Word
deriving DecidableEq, Repr

/-- A BTB entry at reset (R21, R149). -/
def BtbEntry.empty : BtbEntry := { valid := false, tag := 0#32, target := 0#32 }

/-- Where the external operand fetch takes a bundle's two source values from (R13, R159; log 23): the register file at the
bundle's indices, or two values it supplies. -/
inductive OperandSource where
  | regFile
  | values (rs1Value rs2Value : Word)
deriving DecidableEq, Repr

/-- A fetched instruction not yet executed (R17). -/
structure InFlight where
  pc : Word
  item : Fetched
  source : OperandSource
deriving DecidableEq, Repr

/-- What an external agent does next (R11, R12; log 11). -/
inductive Event where
  /-- CycleTick (R121). -/
  | cycleTick
  /-- RetireTick (R121). -/
  | retireTick
  /-- A Predict query (R11, R126). -/
  | predict (pc : Word)
  /-- External fetch fetches the RV32 word at `fetch_pc` (R15). -/
  | fetch
  /-- External fetch and decode hand over the bundle of the instruction at `fetch_pc` (R15, R44). -/
  | fetchBundle (w : BitVec 64) (source : OperandSource)
  /-- The block executes its oldest fetched instruction (R12). -/
  | execute
  /-- An external cause sets the fetch stall (R16). -/
  | stallSet
  /-- The external cause is gone (log 16). -/
  | stallRelease
deriving DecidableEq, Repr

/-- The inputs of an Execute transaction beside the bundle (R11). -/
structure Ports where
  pc : Word
  rs1Value : Word
  rs2Value : Word
  predNextPc : Word
deriving DecidableEq, Repr

/-- The outputs of an Execute transaction (R11), and `flush` (R17). -/
structure Outputs where
  wbValue : Word
  wbRd : RegIdx
  taken : Bool
  redirect : Bool
  redirectPc : Word
  flush : Bool
deriving DecidableEq, Repr

/-- A memory as its listed bytes (R28). -/
abbrev Memory := List Host.Cell

/-- What a byte of memory that nothing has written reads as (DESIGN CHOICE, log 9, unsafe). -/
def unlistedByte : Byte := 0#8

/-- The canonical form of a memory: addresses below 2^32 strictly rising, no entry equal to an unlisted byte. -/
def Memory.wf (m : Memory) : Bool := Sparse.wf unlistedByte (2 ^ 32) m

/-- The machine's state: the block's (10_state.md), that of the external collaborators it reaches, its ports, and three fields
of the model's own (`schedule`, `tickIndex`, `modified`). -/
structure State where
  /-- The configuration, fixed from reset (R133, R150; log 1). -/
  cfg : Config
  /-- R15. -/
  fetchPc : Word
  /-- R16. -/
  fetchStall : Bool
  /-- R19. -/
  cycle : Counter
  /-- R19. -/
  instret : Counter
  /-- R21; an unlisted entry is `BtbEntry.empty`. -/
  btb : List (Nat × BtbEntry)
  /-- R22; an unlisted counter is BHT_INIT. -/
  bht : List (Nat × SatCounter)
  /-- R23. -/
  bhr : Word
  /-- R25. -/
  fatal : Bool
  /-- R25, R136. -/
  fatalCause : BitVec 4
  /-- The younger in-flight instructions, oldest first (R17). -/
  inflight : List InFlight
  /-- The harness's register file (D24). -/
  regs : Vector Word 32
  /-- Data memory (R28). -/
  mem : Memory
  /-- Instruction memory, where it is not data memory (R28 item 4, I20). -/
  imem : Memory
  /-- The ConsoleWrite calls made, oldest first (R114, R162). -/
  console : List (List Byte)
  /-- The inputs of the Execute transaction (R11). -/
  ports : Ports
  /-- The outputs of the last Execute transaction (R11, R17). -/
  out : Outputs
  /-- The answer of the last Predict query (R11). -/
  predictOut : Word
  /-- The external events still to come (the model's own; log 11). -/
  schedule : List Event
  /-- Which free number of ticks is next (the model's own; log 10). -/
  tickIndex : Nat
  /-- The addresses of instruction memory stored to since the last flush (the model's own; R160, log 15). -/
  modified : List (Nat × Bool)
deriving DecidableEq, Repr

/-- Reset with a given configuration (R149, R151; the register file's zeros are D24's). -/
def State.resetWith (c : Config) : State where
  cfg := c
  fetchPc := c.resetPc
  fetchStall := false
  cycle := 0#64
  instret := 0#64
  btb := []
  bht := []
  bhr := 0#32
  fatal := false
  fatalCause := 0#4
  inflight := []
  regs := Vector.replicate 32 0#32
  mem := []
  imem := []
  console := []
  ports := { pc := 0#32, rs1Value := 0#32, rs2Value := 0#32, predNextPc := 0#32 }
  out := { wbValue := 0#32, wbRd := 0#5, taken := false, redirect := false, redirectPc := 0#32, flush := false }
  predictOut := 0#32
  schedule := []
  tickIndex := 0
  modified := []

/-- The machine right after reset, in the configuration of the test vectors (log 1). -/
def State.reset : State := State.resetWith Config.suggested

end Sys2Proof.Machine
end

