-- ==== Sys2Proof/Machine/Ops.lean ====
section
/-! DEFINITION. The named operations over registers, memory, the console, the CSR file and the redirect controller, and raising a
Fatal (the block's only abnormal outcome, R135). -/

namespace Sys2Proof.Machine

/-! ### Raising a Fatal (R137) -/

/-- The 4-bit code of a cause (R136). -/
def FatalCause.code : FatalCause → BitVec 4
  | .illegalBundle => 1#4
  | .badAluOp => 2#4
  | .badBranchOp => 3#4
  | .badMemWidth => 4#4
  | .csrReadUnmapped => 5#4
  | .csrWriteReadonly => 6#4
  | .csrWriteUnmapped => 7#4

/-- `raise Fatal(c)`: the run ends with the cause, and the transaction commits nothing (R137, R138). -/
def raiseFatal (c : FatalCause) : Host.Outcome State Fault Refusal := .fault (.fatal c)

/-- What `raise Fatal(c)` leaves in the block's two status registers (R25); no other state changes (R138). There is no return
from it (R142, R152). -/
def State.latchFatal (c : FatalCause) (s : State) : State := { s with fatal := true, fatalCause := c.code }

/-! ### Registers (the harness of D24) -/

/-- `x[r]`; register 0 reads 0. -/
def State.readReg (r : RegIdx) (s : State) : Word := if r = 0#5 then 0#32 else s.regs[r.toNat]'(r.isLt)

/-- `x[r] <- v`; a write to register 0 is dropped. -/
def State.writeReg (r : RegIdx) (v : Word) (s : State) : State :=
  { s with regs := if r = 0#5 then s.regs else s.regs.set r.toNat v r.isLt }

/-! ### Memory (R29, R30) -/

/-- The widths of R29. -/
inductive Width where
  | byte
  | half
  | word
deriving DecidableEq, Repr

/-- n, the width in bytes. -/
def Width.bytes : Width → Nat
  | .byte => 1
  | .half => 2
  | .word => 4

/-- `M[a]`. -/
def readByte (m : Memory) (a : Word) : Byte := Sparse.get unlistedByte a.toNat m

/-- `M[a] <- v`. -/
def writeByte (m : Memory) (a : Word) (v : Byte) : Memory := Sparse.set unlistedByte a.toNat v m

/-- `MemRead(a, n)`, little-endian and zero-filled, each address modulo 2^32 (R29, R31, R32). -/
def memRead (m : Memory) (a : Word) : Width → Word
  | .byte => BitVec.ofNat 32 (readByte m a).toNat
  | .half => BitVec.ofNat 32 ((readByte m a).toNat + 2 ^ 8 * (readByte m (a + 1#32)).toNat)
  | .word => BitVec.ofNat 32 ((readByte m a).toNat + 2 ^ 8 * (readByte m (a + 1#32)).toNat
      + 2 ^ 16 * (readByte m (a + 2#32)).toNat + 2 ^ 24 * (readByte m (a + 3#32)).toNat)

/-- The low n bytes of `v`, lowest first (R30, R114). -/
def bytesOf (v : Word) : Width → List Byte
  | .byte => [v.extractLsb' 0 8]
  | .half => [v.extractLsb' 0 8, v.extractLsb' 8 8]
  | .word => [v.extractLsb' 0 8, v.extractLsb' 8 8, v.extractLsb' 16 8, v.extractLsb' 24 8]

/-- Bytes written from `a` up, each address modulo 2^32. -/
def writeBytes (m : Memory) (a : Word) : List Byte → Memory
  | [] => m
  | v :: vs => writeBytes (writeByte m a v) (a + 1#32) vs

/-- `MemWrite(a, n, v)` (R30). -/
def memWrite (m : Memory) (a : Word) (w : Width) (v : Word) : Memory := writeBytes m a (bytesOf v w)

/-- Address `x` is one of the n bytes from `a` up, modulo 2^32 (R30). -/
def inAccess (a : Word) (w : Width) (x : Word) : Bool := decide ((x - a).toNat < w.bytes)

/-! ### The console range (R114) -/

/-- The start address lies in the console range: an integer compare with no wrap (R114). -/
def Config.inConsole (c : Config) (a : Word) : Bool :=
  decide (c.mmioBase.toNat ≤ a.toNat) && decide (a.toNat < c.mmioBase.toNat + c.mmioSize)

/-- The addresses of a store marked as modified since the last flush (R160). -/
def markModified (md : List (Nat × Bool)) (a : Word) : List Byte → List (Nat × Bool)
  | [] => md
  | _ :: vs => markModified (Sparse.set false a.toNat true md) (a + 1#32) vs

/-- The store of a width's bytes: one ConsoleWrite, or one MemWrite (R110 to R114). A MemWrite to a memory that instructions are
fetched from marks its addresses (R160). -/
def State.storeTo (a : Word) (w : Width) (v : Word) (s : State) : State :=
  { s with
    mem := if Config.inConsole s.cfg a then s.mem else memWrite s.mem a w v
    console := if Config.inConsole s.cfg a then s.console ++ [bytesOf v w] else s.console
    modified :=
      if Config.inConsole s.cfg a || s.cfg.instrSpace == .separate then s.modified
      else markModified s.modified a (bytesOf v w) }

/-! ### The CSR file (43_csr.md) -/

/-- `CsrRead(a)` (R117). -/
def State.csrRead (a : Word) (s : State) : Except FatalCause Word :=
  if s.cfg.csrInert.contains a then .ok 0#32
  else if a = s.cfg.cycleLo then .ok (s.cycle.extractLsb' 0 32)
  else if a = s.cfg.cycleHi then .ok (s.cycle.extractLsb' 32 32)
  else if a = s.cfg.instretLo then .ok (s.instret.extractLsb' 0 32)
  else if a = s.cfg.instretHi then .ok (s.instret.extractLsb' 32 32)
  else .error .csrReadUnmapped

/-- `CsrWrite(a, v)`: it changes no state in any case (R118). -/
def State.csrWrite (a _v : Word) (s : State) : Except FatalCause State :=
  if s.cfg.csrInert.contains a then .ok s
  else if s.cfg.counterAddrs.contains a then .error .csrWriteReadonly
  else .error .csrWriteUnmapped

/-- `CsrAccess(a, new)`: the old value, and a write only of a differing one (R119). -/
def State.csrAccess (a new : Word) (s : State) : Except FatalCause (Word × State) :=
  match s.csrRead a with
  | .error c => .error c
  | .ok old =>
    if new ≠ old then
      match s.csrWrite a new with
      | .error c => .error c
      | .ok s' => .ok (old, s')
    else .ok (old, s)

/-- CycleTick (R121). -/
def State.cycleTick (s : State) : State := { s with cycle := s.cycle + 1#64 }

/-- RetireTick (R121). -/
def State.retireTick (s : State) : State := { s with instret := s.instret + 1#64 }

/-- The ticks that fall before an Execute transaction: a free number of each (R121, I14; log 10). -/
def State.freeTicks (s : State) : State :=
  { s with
    cycle := s.cycle + BitVec.ofNat 64 (Config.cycleTicks s.tickIndex)
    instret := s.instret + BitVec.ofNat 64 (Config.retireTicks s.tickIndex)
    tickIndex := s.tickIndex + 1 }

/-! ### The redirect and flush controller (R87) -/

/-- pc + 4 modulo 2^32 (R82). -/
def fallthroughOf (pc : Word) : Word := pc + 4#32

/-- The redirect action (R87, R154): `fetch_pc`, the discard of every younger in-flight instruction and the stall's clearing
together, or none of them. With nothing fetched before it left, no address counts as modified any more (R160). -/
def State.redirectTo (redirect : Bool) (pc : Word) (s : State) : State :=
  { s with
    fetchPc := if redirect then pc else s.fetchPc
    fetchStall := if redirect then false else s.fetchStall
    inflight := if redirect then [] else s.inflight
    modified := if redirect then [] else s.modified }

/-- The outputs of the transaction (R11, R17). -/
def State.drive (o : Outputs) (s : State) : State := { s with out := o }

end Sys2Proof.Machine
end

