-- ==== Sys2Proof/Machine/Operands.lean ====
section
/-! DEFINITION. The operand forms of 30_encoding.md R51, the shift amount, the immediates of R56, and the operand fetch that
supplies the two source values. -/

namespace Sys2Proof.Machine

/-- operand1: selection first, then inversion (R61). -/
def operand1 (b : Bundle) (p : Ports) : Word :=
  let v := if b.op1Pc then p.pc else p.rs1Value
  if b.op1Inv then ~~~v else v

/-- operand2; the invert flag never applies to it (R62). -/
def operand2 (b : Bundle) (p : Ports) : Word := if b.op2Imm then b.imm else p.rs2Value

/-- The shift amount, operand2 modulo 32 (R63). -/
def shamtOf (op2 : Word) : Nat := op2.toNat % 32

/-- The I and S immediates: sign extension of 12 bits (R56). -/
def sext12 (i : BitVec 12) : Word := i.signExtend 32

/-- The B immediate: sign extension of 13 bits (R56). -/
def sext13 (i : BitVec 13) : Word := i.signExtend 32

/-- The J immediate: sign extension of 21 bits (R56). -/
def sext21 (i : BitVec 21) : Word := i.signExtend 32

/-- The U immediate: bits 31:12, zeros below (R56). -/
def immU (i : BitVec 20) : Word := BitVec.ofNat 32 (2 ^ 12 * i.toNat)

/-- The CSR address of an RV32 CSR word: zero extension of 12 bits (R56). -/
def csrAddr (i : BitVec 12) : Word := BitVec.ofNat 32 i.toNat

/-- The bundle with every field 0, from which R57's rows set theirs ("Flags not listed are 0"). -/
def emptyBundle : Bundle where
  aluOp := 0#4
  brOp := 0#4
  func3 := 0#3
  op1Pc := false
  op1Inv := false
  op2Imm := false
  isLoad := false
  isStore := false
  isCsr := false
  rd := 0#5
  rs1 := 0#5
  rs2 := 0#5
  imm := 0#32

/-- The operand values put on the ports. -/
def State.withOperands (v1 v2 : Word) (s : State) : State :=
  { s with ports := { s.ports with rs1Value := v1, rs2Value := v2 } }

/-- The old CSR value the operand fetch supplies through the rs2 slot (R57). At an unmapped address it supplies nothing that
matters: the access of the same transaction raises Fatal(CSR_READ_UNMAPPED) (R119). -/
def State.csrOperand (a : Word) (s : State) : Word :=
  match s.csrRead a with
  | .ok v => v
  | .error _ => 0#32

/-- The source values of a bundle's transaction: the registers its indices name, or the values supplied (R13, R159; log 23). -/
def State.sourceValues (b : Bundle) (src : OperandSource) (s : State) : Word × Word :=
  match src with
  | .regFile => (s.readReg b.rs1, s.readReg b.rs2)
  | .values v1 v2 => (v1, v2)

end Sys2Proof.Machine
end

