-- ==== Sys2Proof/Machine/Flags.lean ====
section
/-! DEFINITION. The block has no flags (R18): a comparison gives the word 0 or 1, or the branch unit's `taken`. -/

namespace Sys2Proof.Machine

/-- A comparison's result as a word (R18, R74, R75). -/
def boolWord (c : Bool) : Word := if c then 1#32 else 0#32

/-- s(a) < s(b). -/
def ltSigned (a b : Word) : Bool := decide (a.toInt < b.toInt)

/-- u(a) < u(b). -/
def ltUnsigned (a b : Word) : Bool := decide (a.toNat < b.toNat)

/-- `taken`, by `br_op`, from the raw register values (R81, R91 to R100). -/
def takenOf (op : BitVec 4) (v1 v2 : Word) : Except FatalCause Bool :=
  match op.toNat with
  | 0 => .ok false
  | 1 => .ok true
  | 2 => .ok true
  | 3 => .ok (v1 == v2)
  | 4 => .ok (v1 != v2)
  | 5 => .ok (ltSigned v1 v2)
  | 6 => .ok (!ltSigned v1 v2)
  | 7 => .ok (ltUnsigned v1 v2)
  | 8 => .ok (!ltUnsigned v1 v2)
  | _ => .error .badBranchOp

end Sys2Proof.Machine
end

