-- ==== Sys2Proof/Machine/Predictor.lean ====
section
/-! DEFINITION. The branch predictor: GShare and the always-fallthrough variant (44_predictor.md). -/

namespace Sys2Proof.Machine

/-- 2^n - 1 (R123). -/
def maskOf (n : Nat) : Word := BitVec.ofNat 32 (2 ^ n - 1)

/-- `bht_index(pc, bhr)` (R124). -/
def bhtIndex (c : Config) (pc bhr : Word) : Word := ((pc >>> 2) ^^^ bhr) &&& maskOf c.histBits

/-- `btb_index(pc)` (R125). -/
def btbIndex (c : Config) (pc : Word) : Word := (pc >>> 2) &&& maskOf c.btbIndexBits

/-- `btb_tag(pc)` (R125). -/
def btbTag (c : Config) (pc : Word) : Word := pc >>> (c.btbIndexBits + 2)

/-- The index of a BTB install (R129). -/
def btbInstallIndex (c : Config) (pc bhr : Word) : Word :=
  match c.btbInstall with
  | .xorHistory => ((pc >>> 2) ^^^ bhr) &&& maskOf c.btbIndexBits
  | .pcOnly => (pc >>> 2) &&& maskOf c.btbIndexBits

/-- `bht[j]` (R22). -/
def State.readBht (j : Word) (s : State) : SatCounter := Sparse.get s.cfg.bhtInit j.toNat s.bht

/-- `btb[i]` (R21). -/
def State.readBtb (i : Word) (s : State) : BtbEntry := Sparse.get BtbEntry.empty i.toNat s.btb

/-- `saturate(c, taken)` (R128). -/
def saturate (c : SatCounter) (taken : Bool) : SatCounter :=
  if taken then (if c = 3#2 then 3#2 else c + 1#2) else (if c = 0#2 then 0#2 else c - 1#2)

/-- `Predict(pc)` (R126, R132). -/
def State.predict (pc : Word) (s : State) : Word :=
  match s.cfg.predictor with
  | .fallthrough => fallthroughOf pc
  | .gshare =>
    if 2#2 ≤ s.readBht (bhtIndex s.cfg pc s.bhr) then
      let e := s.readBtb (btbIndex s.cfg pc)
      if e.valid && e.tag == btbTag s.cfg pc then e.target else fallthroughOf pc
    else fallthroughOf pc

/-- `Update(pc, next_pc, taken)` where it is called (`upd`), all with the BHR found on entry (R89, R127 to R130); nothing under
FALLTHROUGH (R132). -/
def State.update (upd : Bool) (pc nextPc : Word) (taken : Bool) (s : State) : State :=
  let act := upd && s.cfg.predictor == .gshare
  { s with
    bht :=
      if act then
        let j := bhtIndex s.cfg pc s.bhr
        Sparse.set s.cfg.bhtInit j.toNat (saturate (s.readBht j) taken) s.bht
      else s.bht
    btb :=
      if act && taken then
        Sparse.set BtbEntry.empty (btbInstallIndex s.cfg pc s.bhr).toNat
          { valid := true, tag := btbTag s.cfg pc, target := nextPc } s.btb
      else s.btb
    bhr :=
      if act then ((s.bhr <<< 1) ||| BitVec.ofNat 32 taken.toNat) &&& maskOf s.cfg.histBits
      else s.bhr }

end Sys2Proof.Machine
end

