-- ==== Sys2Proof/Machine/Execute.lean ====
section
/-! DEFINITION. One Execute transaction (30_encoding.md R55): Compute (R60), Resolve (R81), Access (R101), and the commit. -/

namespace Sys2Proof.Machine

/-- The well-formedness of R52: at most one class flag, and a class flag only with `br_op` = NONE. -/
def bundleWellFormed (b : Bundle) : Bool :=
  !(b.isLoad && b.isStore) && !(b.isLoad && b.isCsr) && !(b.isStore && b.isCsr)
    && (!(b.isLoad || b.isStore || b.isCsr) || b.brOp == 0#4)

/-! ### Compute -/

/-- The operation that `alu_op` selects (R65 to R80). -/
def aluOf (op : BitVec 4) (a b : Word) : Except FatalCause Word :=
  match op.toNat with
  | 0 => .ok 0#32
  | 1 => .ok (a + b)
  | 2 => .ok (a - b)
  | 3 => .ok (a &&& b)
  | 4 => .ok (a ||| b)
  | 5 => .ok (a ^^^ b)
  | 6 => .ok (a <<< shamtOf b)
  | 7 => .ok (a >>> shamtOf b)
  | 8 => .ok (a.sshiftRight (shamtOf b))
  | 9 => .ok (boolWord (ltSigned a b))
  | 10 => .ok (boolWord (ltUnsigned a b))
  | 11 => .ok (BitVec.ofInt 32 (a.toInt * b.toInt))
  | 12 => .ok ((BitVec.ofInt 64 (a.toInt * b.toInt)).extractLsb' 32 32)
  | 13 => .ok ((BitVec.ofInt 64 (a.toInt * (b.toNat : Int))).extractLsb' 32 32)
  | 14 => .ok ((BitVec.ofNat 64 (a.toNat * b.toNat)).extractLsb' 32 32)
  | _ => .error .badAluOp

/-- `Compute` (R60). -/
def compute (b : Bundle) (p : Ports) : Except FatalCause Word := aluOf b.aluOp (operand1 b p) (operand2 b p)

/-! ### Resolve -/

/-- The outputs of Resolve (R81). -/
structure Resolution where
  taken : Bool
  rdValue : Word
  redirect : Bool
  redirectPc : Word
  upd : Bool
  updNextPc : Word
deriving DecidableEq, Repr

/-- The candidate target; JALR clears bit 0 (R83). -/
def targetOf (op : BitVec 4) (alu : Word) : Word := if op = 2#4 then alu &&& 0xFFFFFFFE#32 else alu

/-- The ops of R85's test: the conditional branches and JALR. -/
def mayRedirect (op : BitVec 4) : Bool := op == 2#4 || (decide (3#4 ≤ op) && decide (op ≤ 8#4))

/-- The misprediction test and the redirect target (R85, R86). -/
def redirectOf (policy : RedirectPolicy) (op : BitVec 4) (taken : Bool) (target : Word) (p : Ports) : Bool × Word :=
  match policy with
  | .fallthroughCompare => (mayRedirect op && taken && target != fallthroughOf p.pc, target)
  | .predictionCompare =>
    let actual := if taken then target else fallthroughOf p.pc
    (actual != p.predNextPc, actual)

/-- `Resolve` (R81). -/
def resolve (policy : RedirectPolicy) (op : BitVec 4) (p : Ports) (alu : Word) : Except FatalCause Resolution :=
  match takenOf op p.rs1Value p.rs2Value with
  | .error c => .error c
  | .ok taken =>
    let target := targetOf op alu
    .ok {
      taken := taken
      rdValue := if op = 1#4 ∨ op = 2#4 then fallthroughOf p.pc else alu
      redirect := (redirectOf policy op taken target p).1
      redirectPc := (redirectOf policy op taken target p).2
      upd := op != 0#4
      updNextPc := if taken then target else fallthroughOf p.pc }

/-! ### Access -/

/-- The width that `func3[1:0]` selects (R103). -/
def widthOf (func3 : BitVec 3) : Except FatalCause Width :=
  match (func3.extractLsb' 0 2).toNat with
  | 0 => .ok .byte
  | 1 => .ok .half
  | 2 => .ok .word
  | _ => .error .badMemWidth

/-- The extension of a load: sign for the codes 0 and 1, none for the others, whose bytes MemRead has zero-filled (R104 to R109). -/
def extendLoad (func3 : BitVec 3) (v : Word) : Word :=
  match func3.toNat with
  | 0 => (v.extractLsb' 0 8).signExtend 32
  | 1 => (v.extractLsb' 0 16).signExtend 32
  | _ => v

/-- A load (R103 to R109). -/
def State.load (func3 : BitVec 3) (a : Word) (s : State) : Except FatalCause Word :=
  match widthOf func3 with
  | .error c => .error c
  | .ok w => .ok (extendLoad func3 (memRead s.mem a w))

/-- A store (R103, R110 to R114). -/
def State.store (func3 : BitVec 3) (a data : Word) (s : State) : Except FatalCause State :=
  match widthOf func3 with
  | .error c => .error c
  | .ok w => .ok (s.storeTo a w data)

/-- `Access`: the write-back value and the state with the access made (R101). -/
def access (b : Bundle) (rdValue : Word) (s : State) : Except FatalCause (Word × State) :=
  if b.isLoad then
    match s.load b.func3 rdValue with
    | .error c => .error c
    | .ok v => .ok (v, s)
  else if b.isStore then
    match s.store b.func3 rdValue s.ports.rs2Value with
    | .error c => .error c
    | .ok s' => .ok (rdValue, s')
  else if b.isCsr then s.csrAccess b.imm rdValue
  else .ok (rdValue, s)

/-! ### The transaction -/

/-- The outputs of a transaction (R11); `flush` equals `redirect` (R17). -/
def outputsOf (b : Bundle) (r : Resolution) (wb : Word) : Outputs where
  wbValue := wb
  wbRd := b.rd
  taken := r.taken
  redirect := r.redirect
  redirectPc := r.redirectPc
  flush := r.redirect

/-- The commit (R55): Update, the redirect action, the outputs, and the harness's write-back of `wb_value` at `wb_rd` (D24). -/
def State.commit (b : Bundle) (r : Resolution) (wb : Word) (s : State) : State :=
  (((s.update r.upd s.ports.pc r.updNextPc r.taken).redirectTo r.redirect r.redirectPc).drive (outputsOf b r wb)).writeReg b.rd wb

/-- One Execute transaction of bundle `b` with the inputs on the ports (R55). A Fatal at any point commits nothing (R138). -/
def execute (b : Bundle) (s : State) : Host.Outcome State Fault Refusal :=
  if s.fatal then .fault (.halted s.fatalCause)
  else if !bundleWellFormed b then raiseFatal .illegalBundle
  else
    match compute b s.ports with
    | .error c => raiseFatal c
    | .ok alu =>
      match resolve s.cfg.redirectPolicy b.brOp s.ports alu with
      | .error c => raiseFatal c
      | .ok r =>
        match access b r.rdValue s with
        | .error c => raiseFatal c
        | .ok (wb, s') => .next (s'.commit b r wb)

/-- A bundle refused for its classes before any unit acts (R52, R136). -/
def rejectClasses (s : State) : Host.Outcome State Fault Refusal :=
  if s.fatal then .fault (.halted s.fatalCause) else raiseFatal .illegalBundle

/-- An RV32 word's transaction: operand fetch supplies `x[rs1]` and `x[rs2]` of its bundle (R57, R159). -/
def executeWord (b : Bundle) (s : State) : Host.Outcome State Fault Refusal :=
  execute b (s.withOperands (s.readReg b.rs1) (s.readReg b.rs2))

end Sys2Proof.Machine
end

