-- ==== Sys2Proof/Machine/AluRows.lean ====
section
/-! DEFINITION. The ALU selector rows of the opcode table (40_alu.md). -/

namespace Sys2Proof.Machine

/-- ALU.NONE: Execute with `alu_op` = 0 (R65). -/
def execAluNone (b : Bundle) (s : State) : Host.Outcome State Fault Refusal := execute (b.asAlu 0#4) s

/-- ALU.ADD: Execute with `alu_op` = 1 (R66). -/
def execAluAdd (b : Bundle) (s : State) : Host.Outcome State Fault Refusal := execute (b.asAlu 1#4) s

/-- ALU.SUB: Execute with `alu_op` = 2 (R67). -/
def execAluSub (b : Bundle) (s : State) : Host.Outcome State Fault Refusal := execute (b.asAlu 2#4) s

/-- ALU.AND: Execute with `alu_op` = 3 (R68). -/
def execAluAnd (b : Bundle) (s : State) : Host.Outcome State Fault Refusal := execute (b.asAlu 3#4) s

/-- ALU.OR: Execute with `alu_op` = 4 (R69). -/
def execAluOr (b : Bundle) (s : State) : Host.Outcome State Fault Refusal := execute (b.asAlu 4#4) s

/-- ALU.XOR: Execute with `alu_op` = 5 (R70). -/
def execAluXor (b : Bundle) (s : State) : Host.Outcome State Fault Refusal := execute (b.asAlu 5#4) s

/-- ALU.SLL: Execute with `alu_op` = 6 (R71). -/
def execAluSll (b : Bundle) (s : State) : Host.Outcome State Fault Refusal := execute (b.asAlu 6#4) s

/-- ALU.SRL: Execute with `alu_op` = 7 (R72). -/
def execAluSrl (b : Bundle) (s : State) : Host.Outcome State Fault Refusal := execute (b.asAlu 7#4) s

/-- ALU.SRA: Execute with `alu_op` = 8 (R73). -/
def execAluSra (b : Bundle) (s : State) : Host.Outcome State Fault Refusal := execute (b.asAlu 8#4) s

/-- ALU.LTI: Execute with `alu_op` = 9 (R74). -/
def execAluLti (b : Bundle) (s : State) : Host.Outcome State Fault Refusal := execute (b.asAlu 9#4) s

/-- ALU.LTU: Execute with `alu_op` = 10 (R75). -/
def execAluLtu (b : Bundle) (s : State) : Host.Outcome State Fault Refusal := execute (b.asAlu 10#4) s

/-- ALU.MUL: Execute with `alu_op` = 11 (R76). -/
def execAluMul (b : Bundle) (s : State) : Host.Outcome State Fault Refusal := execute (b.asAlu 11#4) s

/-- ALU.MULH: Execute with `alu_op` = 12 (R77). -/
def execAluMulh (b : Bundle) (s : State) : Host.Outcome State Fault Refusal := execute (b.asAlu 12#4) s

/-- ALU.MULHSU: Execute with `alu_op` = 13 (R78). -/
def execAluMulhsu (b : Bundle) (s : State) : Host.Outcome State Fault Refusal := execute (b.asAlu 13#4) s

/-- ALU.MULHU: Execute with `alu_op` = 14 (R79). -/
def execAluMulhu (b : Bundle) (s : State) : Host.Outcome State Fault Refusal := execute (b.asAlu 14#4) s

/-- ALU.RESERVED_15: BAD_ALU_OP, unless the classes are refused first (R80, R139). -/
def execAluReserved15 (b : Bundle) (s : State) : Host.Outcome State Fault Refusal := execute (b.asAlu 15#4) s

end Sys2Proof.Machine
end

