-- ==== Sys2Proof/Machine/BranchRows.lean ====
section
/-! DEFINITION. The branch selector rows of the opcode table (41_branch.md). -/

namespace Sys2Proof.Machine

/-- BR.NONE: Execute with `br_op` = 0 (R91). -/
def execBrNone (b : Bundle) (s : State) : Host.Outcome State Fault Refusal := execute (b.asBr 0#4) s

/-- BR.JAL: Execute with `br_op` = 1 (R92). -/
def execBrJal (b : Bundle) (s : State) : Host.Outcome State Fault Refusal := execute (b.asBr 1#4) s

/-- BR.JALR: Execute with `br_op` = 2 (R93). -/
def execBrJalr (b : Bundle) (s : State) : Host.Outcome State Fault Refusal := execute (b.asBr 2#4) s

/-- BR.BEQ: Execute with `br_op` = 3 (R94). -/
def execBrBeq (b : Bundle) (s : State) : Host.Outcome State Fault Refusal := execute (b.asBr 3#4) s

/-- BR.BNE: Execute with `br_op` = 4 (R95). -/
def execBrBne (b : Bundle) (s : State) : Host.Outcome State Fault Refusal := execute (b.asBr 4#4) s

/-- BR.BLT: Execute with `br_op` = 5 (R96). -/
def execBrBlt (b : Bundle) (s : State) : Host.Outcome State Fault Refusal := execute (b.asBr 5#4) s

/-- BR.BGE: Execute with `br_op` = 6 (R97). -/
def execBrBge (b : Bundle) (s : State) : Host.Outcome State Fault Refusal := execute (b.asBr 6#4) s

/-- BR.BLTU: Execute with `br_op` = 7 (R98). -/
def execBrBltu (b : Bundle) (s : State) : Host.Outcome State Fault Refusal := execute (b.asBr 7#4) s

/-- BR.BGEU: Execute with `br_op` = 8 (R99). -/
def execBrBgeu (b : Bundle) (s : State) : Host.Outcome State Fault Refusal := execute (b.asBr 8#4) s

/-- BR.RESERVED_9: BAD_BRANCH_OP, unless a cause of R139 comes first (R100). -/
def execBrReserved9 (b : Bundle) (s : State) : Host.Outcome State Fault Refusal := execute (b.asBr 9#4) s

/-- BR.RESERVED_10: BAD_BRANCH_OP, unless a cause of R139 comes first (R100). -/
def execBrReserved10 (b : Bundle) (s : State) : Host.Outcome State Fault Refusal := execute (b.asBr 10#4) s

/-- BR.RESERVED_11: BAD_BRANCH_OP, unless a cause of R139 comes first (R100). -/
def execBrReserved11 (b : Bundle) (s : State) : Host.Outcome State Fault Refusal := execute (b.asBr 11#4) s

/-- BR.RESERVED_12: BAD_BRANCH_OP, unless a cause of R139 comes first (R100). -/
def execBrReserved12 (b : Bundle) (s : State) : Host.Outcome State Fault Refusal := execute (b.asBr 12#4) s

/-- BR.RESERVED_13: BAD_BRANCH_OP, unless a cause of R139 comes first (R100). -/
def execBrReserved13 (b : Bundle) (s : State) : Host.Outcome State Fault Refusal := execute (b.asBr 13#4) s

/-- BR.RESERVED_14: BAD_BRANCH_OP, unless a cause of R139 comes first (R100). -/
def execBrReserved14 (b : Bundle) (s : State) : Host.Outcome State Fault Refusal := execute (b.asBr 14#4) s

/-- BR.RESERVED_15: BAD_BRANCH_OP, unless a cause of R139 comes first (R100). -/
def execBrReserved15 (b : Bundle) (s : State) : Host.Outcome State Fault Refusal := execute (b.asBr 15#4) s

end Sys2Proof.Machine
end

