-- ==== Sys2Proof/Machine/ClassRows.lean ====
section
/-! DEFINITION. The CSR row, the PASS row and the ill-formed class rows of the opcode table (R119, R101, R52). -/

namespace Sys2Proof.Machine

/-- CSR.ACCESS: Execute of a CSR access (R119). -/
def execCsrAccess (b : Bundle) (s : State) : Host.Outcome State Fault Refusal := execute b.asCsr s

/-- PASS: Execute with no class flag, so that `rd_value` passes to write-back (R101). -/
def execPass (b : Bundle) (s : State) : Host.Outcome State Fault Refusal := execute b.asPass s

/-- ILLEGAL.LOAD_STORE: Fatal(ILLEGAL_BUNDLE) before any unit acts (R52, R139). -/
def execIllegalLoadStore (_b : Bundle) (s : State) : Host.Outcome State Fault Refusal := rejectClasses s

/-- ILLEGAL.LOAD_CSR: Fatal(ILLEGAL_BUNDLE) before any unit acts (R52, R139). -/
def execIllegalLoadCsr (_b : Bundle) (s : State) : Host.Outcome State Fault Refusal := rejectClasses s

/-- ILLEGAL.STORE_CSR: Fatal(ILLEGAL_BUNDLE) before any unit acts (R52, R139). -/
def execIllegalStoreCsr (_b : Bundle) (s : State) : Host.Outcome State Fault Refusal := rejectClasses s

/-- ILLEGAL.LOAD_BRANCH: Fatal(ILLEGAL_BUNDLE) before any unit acts (R52, R139). -/
def execIllegalLoadBranch (_b : Bundle) (s : State) : Host.Outcome State Fault Refusal := rejectClasses s

/-- ILLEGAL.STORE_BRANCH: Fatal(ILLEGAL_BUNDLE) before any unit acts (R52, R139). -/
def execIllegalStoreBranch (_b : Bundle) (s : State) : Host.Outcome State Fault Refusal := rejectClasses s

/-- ILLEGAL.CSR_BRANCH: Fatal(ILLEGAL_BUNDLE) before any unit acts (R52, R139). -/
def execIllegalCsrBranch (_b : Bundle) (s : State) : Host.Outcome State Fault Refusal := rejectClasses s

end Sys2Proof.Machine
end

