-- ==== Sys2Proof/Machine/MemRows.lean ====
section
/-! DEFINITION. The load and store rows of the opcode table (42_loadstore.md). -/

namespace Sys2Proof.Machine

/-- MEM.LB: Execute of a load with `func3` = 0 (R104). -/
def execMemLb (b : Bundle) (s : State) : Host.Outcome State Fault Refusal := execute (b.asLoad 0#3) s

/-- MEM.LH: Execute of a load with `func3` = 1 (R105). -/
def execMemLh (b : Bundle) (s : State) : Host.Outcome State Fault Refusal := execute (b.asLoad 1#3) s

/-- MEM.LW: Execute of a load with `func3` = 2 (R106). -/
def execMemLw (b : Bundle) (s : State) : Host.Outcome State Fault Refusal := execute (b.asLoad 2#3) s

/-- MEM.LOAD_RESERVED_3: Execute of a load with `func3` = 3 (R103). -/
def execMemLoadReserved3 (b : Bundle) (s : State) : Host.Outcome State Fault Refusal := execute (b.asLoad 3#3) s

/-- MEM.LBU: Execute of a load with `func3` = 4 (R107). -/
def execMemLbu (b : Bundle) (s : State) : Host.Outcome State Fault Refusal := execute (b.asLoad 4#3) s

/-- MEM.LHU: Execute of a load with `func3` = 5 (R108). -/
def execMemLhu (b : Bundle) (s : State) : Host.Outcome State Fault Refusal := execute (b.asLoad 5#3) s

/-- MEM.LOAD_F3_6: Execute of a load with `func3` = 6 (R109). -/
def execMemLoadF36 (b : Bundle) (s : State) : Host.Outcome State Fault Refusal := execute (b.asLoad 6#3) s

/-- MEM.LOAD_RESERVED_7: Execute of a load with `func3` = 7 (R103). -/
def execMemLoadReserved7 (b : Bundle) (s : State) : Host.Outcome State Fault Refusal := execute (b.asLoad 7#3) s

/-- MEM.SB: Execute of a store with `func3[1:0]` = 0 (R110, R113). -/
def execMemSb (b : Bundle) (s : State) : Host.Outcome State Fault Refusal := execute (b.asStore 0#2) s

/-- MEM.SH: Execute of a store with `func3[1:0]` = 1 (R111, R113). -/
def execMemSh (b : Bundle) (s : State) : Host.Outcome State Fault Refusal := execute (b.asStore 1#2) s

/-- MEM.SW: Execute of a store with `func3[1:0]` = 2 (R112, R113). -/
def execMemSw (b : Bundle) (s : State) : Host.Outcome State Fault Refusal := execute (b.asStore 2#2) s

/-- MEM.STORE_RESERVED_3: Execute of a store with `func3[1:0]` = 3 (R103, R113). -/
def execMemStoreReserved3 (b : Bundle) (s : State) : Host.Outcome State Fault Refusal := execute (b.asStore 3#2) s

end Sys2Proof.Machine
end

