-- ==== Sys2Proof/Machine/Rv32Alu.lean ====
section
/-! DEFINITION. The RV32 register, immediate and upper-immediate operations and the bundles they map to (R57). -/

namespace Sys2Proof.Machine

/-- LUI: ADD of x0 and the U immediate (R57). -/
def execLui (rd : RegIdx) (imm : BitVec 20) (s : State) : Host.Outcome State Fault Refusal :=
  executeWord { emptyBundle with aluOp := 1#4, op2Imm := true, rd := rd, imm := immU imm } s

/-- AUIPC: ADD of pc and the U immediate (R57). -/
def execAuipc (rd : RegIdx) (imm : BitVec 20) (s : State) : Host.Outcome State Fault Refusal :=
  executeWord { emptyBundle with aluOp := 1#4, op1Pc := true, op2Imm := true, rd := rd, imm := immU imm } s

/-- ADDI (R57, R66). -/
def execAddi (rd rs1 : RegIdx) (imm : BitVec 12) (s : State) : Host.Outcome State Fault Refusal :=
  executeWord { emptyBundle with aluOp := 1#4, op2Imm := true, rd := rd, rs1 := rs1, imm := sext12 imm } s

/-- SLTI (R57, R74). -/
def execSlti (rd rs1 : RegIdx) (imm : BitVec 12) (s : State) : Host.Outcome State Fault Refusal :=
  executeWord { emptyBundle with aluOp := 9#4, op2Imm := true, rd := rd, rs1 := rs1, imm := sext12 imm } s

/-- SLTIU (R57, R75). -/
def execSltiu (rd rs1 : RegIdx) (imm : BitVec 12) (s : State) : Host.Outcome State Fault Refusal :=
  executeWord { emptyBundle with aluOp := 10#4, op2Imm := true, rd := rd, rs1 := rs1, imm := sext12 imm } s

/-- XORI (R57, R70). -/
def execXori (rd rs1 : RegIdx) (imm : BitVec 12) (s : State) : Host.Outcome State Fault Refusal :=
  executeWord { emptyBundle with aluOp := 5#4, op2Imm := true, rd := rd, rs1 := rs1, imm := sext12 imm } s

/-- ORI (R57, R69). -/
def execOri (rd rs1 : RegIdx) (imm : BitVec 12) (s : State) : Host.Outcome State Fault Refusal :=
  executeWord { emptyBundle with aluOp := 4#4, op2Imm := true, rd := rd, rs1 := rs1, imm := sext12 imm } s

/-- ANDI (R57, R68). -/
def execAndi (rd rs1 : RegIdx) (imm : BitVec 12) (s : State) : Host.Outcome State Fault Refusal :=
  executeWord { emptyBundle with aluOp := 3#4, op2Imm := true, rd := rd, rs1 := rs1, imm := sext12 imm } s

/-- SLLI (R57, R71). -/
def execSlli (rd rs1 : RegIdx) (shamt : BitVec 5) (s : State) : Host.Outcome State Fault Refusal :=
  executeWord { emptyBundle with aluOp := 6#4, op2Imm := true, rd := rd, rs1 := rs1, imm := BitVec.ofNat 32 shamt.toNat } s

/-- SRLI (R57, R72). -/
def execSrli (rd rs1 : RegIdx) (shamt : BitVec 5) (s : State) : Host.Outcome State Fault Refusal :=
  executeWord { emptyBundle with aluOp := 7#4, op2Imm := true, rd := rd, rs1 := rs1, imm := BitVec.ofNat 32 shamt.toNat } s

/-- SRAI (R57, R73); the immediate keeps the word's 0x400. -/
def execSrai (rd rs1 : RegIdx) (shamt : BitVec 5) (s : State) : Host.Outcome State Fault Refusal :=
  executeWord { emptyBundle with aluOp := 8#4, op2Imm := true, rd := rd, rs1 := rs1, imm := BitVec.ofNat 32 (0x400 + shamt.toNat) } s

/-- ADD (R57, R66). -/
def execAdd (rd rs1 rs2 : RegIdx) (s : State) : Host.Outcome State Fault Refusal :=
  executeWord { emptyBundle with aluOp := 1#4, rd := rd, rs1 := rs1, rs2 := rs2 } s

/-- SUB (R57, R67). -/
def execSub (rd rs1 rs2 : RegIdx) (s : State) : Host.Outcome State Fault Refusal :=
  executeWord { emptyBundle with aluOp := 2#4, rd := rd, rs1 := rs1, rs2 := rs2 } s

/-- SLL (R57, R71). -/
def execSll (rd rs1 rs2 : RegIdx) (s : State) : Host.Outcome State Fault Refusal :=
  executeWord { emptyBundle with aluOp := 6#4, rd := rd, rs1 := rs1, rs2 := rs2 } s

/-- SLT (R57, R74). -/
def execSlt (rd rs1 rs2 : RegIdx) (s : State) : Host.Outcome State Fault Refusal :=
  executeWord { emptyBundle with aluOp := 9#4, rd := rd, rs1 := rs1, rs2 := rs2 } s

/-- SLTU (R57, R75). -/
def execSltu (rd rs1 rs2 : RegIdx) (s : State) : Host.Outcome State Fault Refusal :=
  executeWord { emptyBundle with aluOp := 10#4, rd := rd, rs1 := rs1, rs2 := rs2 } s

/-- XOR (R57, R70). -/
def execXor (rd rs1 rs2 : RegIdx) (s : State) : Host.Outcome State Fault Refusal :=
  executeWord { emptyBundle with aluOp := 5#4, rd := rd, rs1 := rs1, rs2 := rs2 } s

/-- SRL (R57, R72). -/
def execSrl (rd rs1 rs2 : RegIdx) (s : State) : Host.Outcome State Fault Refusal :=
  executeWord { emptyBundle with aluOp := 7#4, rd := rd, rs1 := rs1, rs2 := rs2 } s

/-- SRA (R57, R73). -/
def execSra (rd rs1 rs2 : RegIdx) (s : State) : Host.Outcome State Fault Refusal :=
  executeWord { emptyBundle with aluOp := 8#4, rd := rd, rs1 := rs1, rs2 := rs2 } s

/-- OR (R57, R69). -/
def execOr (rd rs1 rs2 : RegIdx) (s : State) : Host.Outcome State Fault Refusal :=
  executeWord { emptyBundle with aluOp := 4#4, rd := rd, rs1 := rs1, rs2 := rs2 } s

/-- AND (R57, R68). -/
def execAnd (rd rs1 rs2 : RegIdx) (s : State) : Host.Outcome State Fault Refusal :=
  executeWord { emptyBundle with aluOp := 3#4, rd := rd, rs1 := rs1, rs2 := rs2 } s

/-- MUL (R57, R76). -/
def execMul (rd rs1 rs2 : RegIdx) (s : State) : Host.Outcome State Fault Refusal :=
  executeWord { emptyBundle with aluOp := 11#4, rd := rd, rs1 := rs1, rs2 := rs2 } s

/-- MULH (R57, R77). -/
def execMulh (rd rs1 rs2 : RegIdx) (s : State) : Host.Outcome State Fault Refusal :=
  executeWord { emptyBundle with aluOp := 12#4, rd := rd, rs1 := rs1, rs2 := rs2 } s

/-- MULHSU (R57, R78). -/
def execMulhsu (rd rs1 rs2 : RegIdx) (s : State) : Host.Outcome State Fault Refusal :=
  executeWord { emptyBundle with aluOp := 13#4, rd := rd, rs1 := rs1, rs2 := rs2 } s

/-- MULHU (R57, R79). -/
def execMulhu (rd rs1 rs2 : RegIdx) (s : State) : Host.Outcome State Fault Refusal :=
  executeWord { emptyBundle with aluOp := 14#4, rd := rd, rs1 := rs1, rs2 := rs2 } s

end Sys2Proof.Machine
end

