-- ==== Sys2Proof/Machine/Rv32Branch.lean ====
section
/-! DEFINITION. The RV32 jumps and conditional branches and the bundles they map to (R57). -/

namespace Sys2Proof.Machine

/-- JAL: ADD of pc and the J immediate is the target (R57, R92). -/
def execJal (rd : RegIdx) (imm : BitVec 21) (s : State) : Host.Outcome State Fault Refusal :=
  executeWord { emptyBundle with aluOp := 1#4, brOp := 1#4, op1Pc := true, op2Imm := true, rd := rd, imm := sext21 imm } s

/-- JALR: ADD of rs1 and the I immediate is the target (R57, R93). -/
def execJalr (rd rs1 : RegIdx) (imm : BitVec 12) (s : State) : Host.Outcome State Fault Refusal :=
  executeWord { emptyBundle with aluOp := 1#4, brOp := 2#4, op2Imm := true, rd := rd, rs1 := rs1, imm := sext12 imm } s

/-- BEQ: ADD of pc and the B immediate is the target (R57, R94). -/
def execBeq (rs1 rs2 : RegIdx) (imm : BitVec 13) (s : State) : Host.Outcome State Fault Refusal :=
  executeWord { emptyBundle with aluOp := 1#4, brOp := 3#4, op1Pc := true, op2Imm := true, rs1 := rs1, rs2 := rs2, imm := sext13 imm } s

/-- BNE: ADD of pc and the B immediate is the target (R57, R95). -/
def execBne (rs1 rs2 : RegIdx) (imm : BitVec 13) (s : State) : Host.Outcome State Fault Refusal :=
  executeWord { emptyBundle with aluOp := 1#4, brOp := 4#4, op1Pc := true, op2Imm := true, rs1 := rs1, rs2 := rs2, imm := sext13 imm } s

/-- BLT: ADD of pc and the B immediate is the target (R57, R96). -/
def execBlt (rs1 rs2 : RegIdx) (imm : BitVec 13) (s : State) : Host.Outcome State Fault Refusal :=
  executeWord { emptyBundle with aluOp := 1#4, brOp := 5#4, op1Pc := true, op2Imm := true, rs1 := rs1, rs2 := rs2, imm := sext13 imm } s

/-- BGE: ADD of pc and the B immediate is the target (R57, R97). -/
def execBge (rs1 rs2 : RegIdx) (imm : BitVec 13) (s : State) : Host.Outcome State Fault Refusal :=
  executeWord { emptyBundle with aluOp := 1#4, brOp := 6#4, op1Pc := true, op2Imm := true, rs1 := rs1, rs2 := rs2, imm := sext13 imm } s

/-- BLTU: ADD of pc and the B immediate is the target (R57, R98). -/
def execBltu (rs1 rs2 : RegIdx) (imm : BitVec 13) (s : State) : Host.Outcome State Fault Refusal :=
  executeWord { emptyBundle with aluOp := 1#4, brOp := 7#4, op1Pc := true, op2Imm := true, rs1 := rs1, rs2 := rs2, imm := sext13 imm } s

/-- BGEU: ADD of pc and the B immediate is the target (R57, R99). -/
def execBgeu (rs1 rs2 : RegIdx) (imm : BitVec 13) (s : State) : Host.Outcome State Fault Refusal :=
  executeWord { emptyBundle with aluOp := 1#4, brOp := 8#4, op1Pc := true, op2Imm := true, rs1 := rs1, rs2 := rs2, imm := sext13 imm } s

end Sys2Proof.Machine
end

