-- ==== Sys2Proof/Machine/Rv32Mem.lean ====
section
/-! DEFINITION. The RV32 loads and stores and the bundles they map to (R57). -/

namespace Sys2Proof.Machine

/-- LB: ADD of rs1 and the I immediate is the address (R57, R104). -/
def execLb (rd rs1 : RegIdx) (imm : BitVec 12) (s : State) : Host.Outcome State Fault Refusal :=
  executeWord { emptyBundle with aluOp := 1#4, op2Imm := true, isLoad := true, func3 := 0#3, rd := rd, rs1 := rs1, imm := sext12 imm } s

/-- LH: ADD of rs1 and the I immediate is the address (R57, R105). -/
def execLh (rd rs1 : RegIdx) (imm : BitVec 12) (s : State) : Host.Outcome State Fault Refusal :=
  executeWord { emptyBundle with aluOp := 1#4, op2Imm := true, isLoad := true, func3 := 1#3, rd := rd, rs1 := rs1, imm := sext12 imm } s

/-- LW: ADD of rs1 and the I immediate is the address (R57, R106). -/
def execLw (rd rs1 : RegIdx) (imm : BitVec 12) (s : State) : Host.Outcome State Fault Refusal :=
  executeWord { emptyBundle with aluOp := 1#4, op2Imm := true, isLoad := true, func3 := 2#3, rd := rd, rs1 := rs1, imm := sext12 imm } s

/-- LBU: ADD of rs1 and the I immediate is the address (R57, R107). -/
def execLbu (rd rs1 : RegIdx) (imm : BitVec 12) (s : State) : Host.Outcome State Fault Refusal :=
  executeWord { emptyBundle with aluOp := 1#4, op2Imm := true, isLoad := true, func3 := 4#3, rd := rd, rs1 := rs1, imm := sext12 imm } s

/-- LHU: ADD of rs1 and the I immediate is the address (R57, R108). -/
def execLhu (rd rs1 : RegIdx) (imm : BitVec 12) (s : State) : Host.Outcome State Fault Refusal :=
  executeWord { emptyBundle with aluOp := 1#4, op2Imm := true, isLoad := true, func3 := 5#3, rd := rd, rs1 := rs1, imm := sext12 imm } s

/-- SB: ADD of rs1 and the S immediate is the address (R57, R110). -/
def execSb (rs1 rs2 : RegIdx) (imm : BitVec 12) (s : State) : Host.Outcome State Fault Refusal :=
  executeWord { emptyBundle with aluOp := 1#4, op2Imm := true, isStore := true, func3 := 0#3, rs1 := rs1, rs2 := rs2, imm := sext12 imm } s

/-- SH: ADD of rs1 and the S immediate is the address (R57, R111). -/
def execSh (rs1 rs2 : RegIdx) (imm : BitVec 12) (s : State) : Host.Outcome State Fault Refusal :=
  executeWord { emptyBundle with aluOp := 1#4, op2Imm := true, isStore := true, func3 := 1#3, rs1 := rs1, rs2 := rs2, imm := sext12 imm } s

/-- SW: ADD of rs1 and the S immediate is the address (R57, R112). -/
def execSw (rs1 rs2 : RegIdx) (imm : BitVec 12) (s : State) : Host.Outcome State Fault Refusal :=
  executeWord { emptyBundle with aluOp := 1#4, op2Imm := true, isStore := true, func3 := 2#3, rs1 := rs1, rs2 := rs2, imm := sext12 imm } s

end Sys2Proof.Machine
end

