-- ==== Sys2Proof/Machine/Rv32Refused.lean ====
section
/-! DEFINITION. The RV32 instructions the informative decoder refuses by name (R58). -/

namespace Sys2Proof.Machine

/-- DIV has no bundle and is not executed: the ALU has no divide (R58). -/
def execDiv (_rd _rs1 _rs2 : RegIdx) (_s : State) : Host.Outcome State Fault Refusal := .refused (.noBundle "DIV")

/-- DIVU has no bundle and is not executed: the ALU has no divide (R58). -/
def execDivu (_rd _rs1 _rs2 : RegIdx) (_s : State) : Host.Outcome State Fault Refusal := .refused (.noBundle "DIVU")

/-- REM has no bundle and is not executed: the ALU has no divide (R58). -/
def execRem (_rd _rs1 _rs2 : RegIdx) (_s : State) : Host.Outcome State Fault Refusal := .refused (.noBundle "REM")

/-- REMU has no bundle and is not executed: the ALU has no divide (R58). -/
def execRemu (_rd _rs1 _rs2 : RegIdx) (_s : State) : Host.Outcome State Fault Refusal := .refused (.noBundle "REMU")

/-- ECALL has no bundle and is not executed: the block has no trap handling (R58). -/
def execEcall (_s : State) : Host.Outcome State Fault Refusal := .refused (.noBundle "ECALL")

/-- EBREAK has no bundle and is not executed: the block has no trap handling (R58). -/
def execEbreak (_s : State) : Host.Outcome State Fault Refusal := .refused (.noBundle "EBREAK")

/-- FENCE.I has no bundle and is not executed: the block has no instruction-fetch maintenance (R42) (R58). -/
def execFenceI (_rd _rs1 : RegIdx) (_imm : BitVec 12) (_s : State) : Host.Outcome State Fault Refusal := .refused (.noBundle "FENCE.I")

end Sys2Proof.Machine
end

