-- ==== Sys2Proof/Machine/Rv32System.lean ====
section
/-! DEFINITION. FENCE and the RV32 CSR instructions and the bundles they map to (R57, R120). -/

namespace Sys2Proof.Machine

/-- FENCE: a bundle that does nothing but write nothing to register 0 (R40, R57); fm, pred and succ have no place in the bundle. -/
def execFence (_fm _pred _succ : BitVec 4) (rs1 _rd : RegIdx) (s : State) : Host.Outcome State Fault Refusal :=
  executeWord { emptyBundle with rs1 := rs1 } s

/-- CSRRW: OR forms the new value, the rs2 slot holding 0 (R57, R119, R120). -/
def execCsrrw (rd rs1 : RegIdx) (csr : BitVec 12) (s : State) : Host.Outcome State Fault Refusal :=
  execute { emptyBundle with aluOp := 4#4, isCsr := true, rd := rd, rs1 := rs1, imm := csrAddr csr }
    (s.withOperands (s.readReg rs1) 0#32)

/-- CSRRS: OR forms the new value, the rs2 slot holding the old one (R57, R119, R120). -/
def execCsrrs (rd rs1 : RegIdx) (csr : BitVec 12) (s : State) : Host.Outcome State Fault Refusal :=
  execute { emptyBundle with aluOp := 4#4, isCsr := true, rd := rd, rs1 := rs1, imm := csrAddr csr }
    (s.withOperands (s.readReg rs1) (s.csrOperand (csrAddr csr)))

/-- CSRRC: AND with the inverted source forms the new value, the rs2 slot holding the old one (R57, R119, R120). -/
def execCsrrc (rd rs1 : RegIdx) (csr : BitVec 12) (s : State) : Host.Outcome State Fault Refusal :=
  execute { emptyBundle with aluOp := 3#4, op1Inv := true, isCsr := true, rd := rd, rs1 := rs1, imm := csrAddr csr }
    (s.withOperands (s.readReg rs1) (s.csrOperand (csrAddr csr)))

/-- CSRRWI: OR forms the new value, the rs2 slot holding 0 (R57, R119, R120). -/
def execCsrrwi (rd : RegIdx) (zimm : BitVec 5) (csr : BitVec 12) (s : State) : Host.Outcome State Fault Refusal :=
  execute { emptyBundle with aluOp := 4#4, isCsr := true, rd := rd, imm := csrAddr csr }
    (s.withOperands (BitVec.ofNat 32 zimm.toNat) 0#32)

/-- CSRRSI: OR forms the new value, the rs2 slot holding the old one (R57, R119, R120). -/
def execCsrrsi (rd : RegIdx) (zimm : BitVec 5) (csr : BitVec 12) (s : State) : Host.Outcome State Fault Refusal :=
  execute { emptyBundle with aluOp := 4#4, isCsr := true, rd := rd, imm := csrAddr csr }
    (s.withOperands (BitVec.ofNat 32 zimm.toNat) (s.csrOperand (csrAddr csr)))

/-- CSRRCI: AND with the inverted source forms the new value, the rs2 slot holding the old one (R57, R119, R120). -/
def execCsrrci (rd : RegIdx) (zimm : BitVec 5) (csr : BitVec 12) (s : State) : Host.Outcome State Fault Refusal :=
  execute { emptyBundle with aluOp := 3#4, op1Inv := true, isCsr := true, rd := rd, imm := csrAddr csr }
    (s.withOperands (BitVec.ofNat 32 zimm.toNat) (s.csrOperand (csrAddr csr)))

end Sys2Proof.Machine
end

