-- ==== Sys2Proof/Machine/Dispatch.lean ====
section
/-! DEFINITION. What executing an instruction does: one arm per constructor of `Instr`. -/

namespace Sys2Proof.Machine

def exec (i : Instr) (s : State) : Host.Outcome State Fault Refusal :=
  match i with
  | .aluNone b => Sys2Proof.Machine.execAluNone b s
  | .aluAdd b => Sys2Proof.Machine.execAluAdd b s
  | .aluSub b => Sys2Proof.Machine.execAluSub b s
  | .aluAnd b => Sys2Proof.Machine.execAluAnd b s
  | .aluOr b => Sys2Proof.Machine.execAluOr b s
  | .aluXor b => Sys2Proof.Machine.execAluXor b s
  | .aluSll b => Sys2Proof.Machine.execAluSll b s
  | .aluSrl b => Sys2Proof.Machine.execAluSrl b s
  | .aluSra b => Sys2Proof.Machine.execAluSra b s
  | .aluLti b => Sys2Proof.Machine.execAluLti b s
  | .aluLtu b => Sys2Proof.Machine.execAluLtu b s
  | .aluMul b => Sys2Proof.Machine.execAluMul b s
  | .aluMulh b => Sys2Proof.Machine.execAluMulh b s
  | .aluMulhsu b => Sys2Proof.Machine.execAluMulhsu b s
  | .aluMulhu b => Sys2Proof.Machine.execAluMulhu b s
  | .aluReserved15 b => Sys2Proof.Machine.execAluReserved15 b s
  | .brNone b => Sys2Proof.Machine.execBrNone b s
  | .brJal b => Sys2Proof.Machine.execBrJal b s
  | .brJalr b => Sys2Proof.Machine.execBrJalr b s
  | .brBeq b => Sys2Proof.Machine.execBrBeq b s
  | .brBne b => Sys2Proof.Machine.execBrBne b s
  | .brBlt b => Sys2Proof.Machine.execBrBlt b s
  | .brBge b => Sys2Proof.Machine.execBrBge b s
  | .brBltu b => Sys2Proof.Machine.execBrBltu b s
  | .brBgeu b => Sys2Proof.Machine.execBrBgeu b s
  | .brReserved9 b => Sys2Proof.Machine.execBrReserved9 b s
  | .brReserved10 b => Sys2Proof.Machine.execBrReserved10 b s
  | .brReserved11 b => Sys2Proof.Machine.execBrReserved11 b s
  | .brReserved12 b => Sys2Proof.Machine.execBrReserved12 b s
  | .brReserved13 b => Sys2Proof.Machine.execBrReserved13 b s
  | .brReserved14 b => Sys2Proof.Machine.execBrReserved14 b s
  | .brReserved15 b => Sys2Proof.Machine.execBrReserved15 b s
  | .memLb b => Sys2Proof.Machine.execMemLb b s
  | .memLh b => Sys2Proof.Machine.execMemLh b s
  | .memLw b => Sys2Proof.Machine.execMemLw b s
  | .memLoadReserved3 b => Sys2Proof.Machine.execMemLoadReserved3 b s
  | .memLbu b => Sys2Proof.Machine.execMemLbu b s
  | .memLhu b => Sys2Proof.Machine.execMemLhu b s
  | .memLoadF36 b => Sys2Proof.Machine.execMemLoadF36 b s
  | .memLoadReserved7 b => Sys2Proof.Machine.execMemLoadReserved7 b s
  | .memSb b => Sys2Proof.Machine.execMemSb b s
  | .memSh b => Sys2Proof.Machine.execMemSh b s
  | .memSw b => Sys2Proof.Machine.execMemSw b s
  | .memStoreReserved3 b => Sys2Proof.Machine.execMemStoreReserved3 b s
  | .csrAccess b => Sys2Proof.Machine.execCsrAccess b s
  | .pass b => Sys2Proof.Machine.execPass b s
  | .illegalLoadStore b => Sys2Proof.Machine.execIllegalLoadStore b s
  | .illegalLoadCsr b => Sys2Proof.Machine.execIllegalLoadCsr b s
  | .illegalStoreCsr b => Sys2Proof.Machine.execIllegalStoreCsr b s
  | .illegalLoadBranch b => Sys2Proof.Machine.execIllegalLoadBranch b s
  | .illegalStoreBranch b => Sys2Proof.Machine.execIllegalStoreBranch b s
  | .illegalCsrBranch b => Sys2Proof.Machine.execIllegalCsrBranch b s
  | .lui rd imm => Sys2Proof.Machine.execLui rd imm s
  | .auipc rd imm => Sys2Proof.Machine.execAuipc rd imm s
  | .jal rd imm => Sys2Proof.Machine.execJal rd imm s
  | .jalr rd rs1 imm => Sys2Proof.Machine.execJalr rd rs1 imm s
  | .beq rs1 rs2 imm => Sys2Proof.Machine.execBeq rs1 rs2 imm s
  | .bne rs1 rs2 imm => Sys2Proof.Machine.execBne rs1 rs2 imm s
  | .blt rs1 rs2 imm => Sys2Proof.Machine.execBlt rs1 rs2 imm s
  | .bge rs1 rs2 imm => Sys2Proof.Machine.execBge rs1 rs2 imm s
  | .bltu rs1 rs2 imm => Sys2Proof.Machine.execBltu rs1 rs2 imm s
  | .bgeu rs1 rs2 imm => Sys2Proof.Machine.execBgeu rs1 rs2 imm s
  | .lb rd rs1 imm => Sys2Proof.Machine.execLb rd rs1 imm s
  | .lh rd rs1 imm => Sys2Proof.Machine.execLh rd rs1 imm s
  | .lw rd rs1 imm => Sys2Proof.Machine.execLw rd rs1 imm s
  | .lbu rd rs1 imm => Sys2Proof.Machine.execLbu rd rs1 imm s
  | .lhu rd rs1 imm => Sys2Proof.Machine.execLhu rd rs1 imm s
  | .sb rs1 rs2 imm => Sys2Proof.Machine.execSb rs1 rs2 imm s
  | .sh rs1 rs2 imm => Sys2Proof.Machine.execSh rs1 rs2 imm s
  | .sw rs1 rs2 imm => Sys2Proof.Machine.execSw rs1 rs2 imm s
  | .addi rd rs1 imm => Sys2Proof.Machine.execAddi rd rs1 imm s
  | .slti rd rs1 imm => Sys2Proof.Machine.execSlti rd rs1 imm s
  | .sltiu rd rs1 imm => Sys2Proof.Machine.execSltiu rd rs1 imm s
  | .xori rd rs1 imm => Sys2Proof.Machine.execXori rd rs1 imm s
  | .ori rd rs1 imm => Sys2Proof.Machine.execOri rd rs1 imm s
  | .andi rd rs1 imm => Sys2Proof.Machine.execAndi rd rs1 imm s
  | .slli rd rs1 shamt => Sys2Proof.Machine.execSlli rd rs1 shamt s
  | .srli rd rs1 shamt => Sys2Proof.Machine.execSrli rd rs1 shamt s
  | .srai rd rs1 shamt => Sys2Proof.Machine.execSrai rd rs1 shamt s
  | .add rd rs1 rs2 => Sys2Proof.Machine.execAdd rd rs1 rs2 s
  | .sub rd rs1 rs2 => Sys2Proof.Machine.execSub rd rs1 rs2 s
  | .sll rd rs1 rs2 => Sys2Proof.Machine.execSll rd rs1 rs2 s
  | .slt rd rs1 rs2 => Sys2Proof.Machine.execSlt rd rs1 rs2 s
  | .sltu rd rs1 rs2 => Sys2Proof.Machine.execSltu rd rs1 rs2 s
  | .xor rd rs1 rs2 => Sys2Proof.Machine.execXor rd rs1 rs2 s
  | .srl rd rs1 rs2 => Sys2Proof.Machine.execSrl rd rs1 rs2 s
  | .sra rd rs1 rs2 => Sys2Proof.Machine.execSra rd rs1 rs2 s
  | .or rd rs1 rs2 => Sys2Proof.Machine.execOr rd rs1 rs2 s
  | .and rd rs1 rs2 => Sys2Proof.Machine.execAnd rd rs1 rs2 s
  | .mul rd rs1 rs2 => Sys2Proof.Machine.execMul rd rs1 rs2 s
  | .mulh rd rs1 rs2 => Sys2Proof.Machine.execMulh rd rs1 rs2 s
  | .mulhsu rd rs1 rs2 => Sys2Proof.Machine.execMulhsu rd rs1 rs2 s
  | .mulhu rd rs1 rs2 => Sys2Proof.Machine.execMulhu rd rs1 rs2 s
  | .fence fm pred succ rs1 rd => Sys2Proof.Machine.execFence fm pred succ rs1 rd s
  | .csrrw rd rs1 csr => Sys2Proof.Machine.execCsrrw rd rs1 csr s
  | .csrrs rd rs1 csr => Sys2Proof.Machine.execCsrrs rd rs1 csr s
  | .csrrc rd rs1 csr => Sys2Proof.Machine.execCsrrc rd rs1 csr s
  | .csrrwi rd zimm csr => Sys2Proof.Machine.execCsrrwi rd zimm csr s
  | .csrrsi rd zimm csr => Sys2Proof.Machine.execCsrrsi rd zimm csr s
  | .csrrci rd zimm csr => Sys2Proof.Machine.execCsrrci rd zimm csr s
  | .div rd rs1 rs2 => Sys2Proof.Machine.execDiv rd rs1 rs2 s
  | .divu rd rs1 rs2 => Sys2Proof.Machine.execDivu rd rs1 rs2 s
  | .rem rd rs1 rs2 => Sys2Proof.Machine.execRem rd rs1 rs2 s
  | .remu rd rs1 rs2 => Sys2Proof.Machine.execRemu rd rs1 rs2 s
  | .ecall => Sys2Proof.Machine.execEcall s
  | .ebreak => Sys2Proof.Machine.execEbreak s
  | .fenceI rd rs1 imm => Sys2Proof.Machine.execFenceI rd rs1 imm s

end Sys2Proof.Machine
end

