-- ==== Sys2Proof/Machine/Fetch.lean ====
section
/-! DEFINITION. The external fetch as the block sees it: reading an instruction word, steering, advancing `fetch_pc`, and handing
the oldest fetched instruction to the block (10_state.md R15 to R17, R42, 70_reset_and_hazards.md R153 to R160). -/

namespace Sys2Proof.Machine

/-- The memory instructions are fetched from (R28 item 4, I20; log 13). -/
def State.instrMem (s : State) : Memory :=
  match s.cfg.instrSpace with
  | .unified => s.mem
  | .separate => s.imem

/-- The RV32 word at an address, its byte at the lowest address first (R31, R42). -/
def State.instrWord (pc : Word) (s : State) : BitVec 32 :=
  wordOfBytes (readByte s.instrMem pc) (readByte s.instrMem (pc + 1#32)) (readByte s.instrMem (pc + 2#32))
    (readByte s.instrMem (pc + 3#32))

/-- Where upstream steering sends fetch for a JAL: the word's pc-relative target, or the target of a bundle whose `br_op` is JAL and
that has no class flag, computed from the operand values as they stand (R90, R157, I19; log 12). -/
def State.steerTarget (pc : Word) (item : Fetched) (src : OperandSource) (s : State) : Option Word :=
  if !s.cfg.jalSteering then none
  else
    match item with
    | .word w => if opcodeOf w = 0x6F#7 then some (pc + (immJOf w).signExtend 32) else none
    | .bundle w =>
      let b := Bundle.unpack w
      if b.brOp = 1#4 && bundleWellFormed b then
        let v := s.sourceValues b src
        match compute b { pc := pc, rs1Value := v.1, rs2Value := v.2, predNextPc := 0#32 } with
        | .ok t => some t
        | .error _ => none
      else none

/-- The address fetched after the item at `pc`: the steered target of a JAL, or `Predict(pc)` (R15, R126). -/
def State.nextFetchPc (pc : Word) (item : Fetched) (src : OperandSource) (s : State) : Word :=
  match s.steerTarget pc item src with
  | some t => t
  | none => s.predict pc

/-- One fetch: the item at `fetch_pc` joins the in-flight instructions and `fetch_pc` advances (R15). -/
def State.fetchItem (item : Fetched) (src : OperandSource) (s : State) : State :=
  { s with
    inflight := s.inflight ++ [{ pc := s.fetchPc, item := item, source := src }]
    fetchPc := s.nextFetchPc s.fetchPc item src }

/-- Bits 1:0 of an address are 0. -/
def aligned4 (a : Word) : Bool := a.extractLsb' 0 2 == 0#2

/-- A fetch request: none while the stall is pending (R16); no meaning at a misaligned pc (R33, I15). -/
def State.tryFetch (item : Fetched) (src : OperandSource) (s : State) : Host.Outcome State Fault Refusal :=
  if s.fetchStall then .next s
  else if aligned4 s.fetchPc then .next (s.fetchItem item src)
  else .refused (.misalignedFetch s.fetchPc)

/-- A byte of the instruction at `pc` was stored to since the last flush (R160). -/
def State.isModified (pc : Word) (s : State) : Bool :=
  Sparse.get false pc.toNat s.modified || Sparse.get false (pc + 1#32).toNat s.modified
    || Sparse.get false (pc + 2#32).toNat s.modified || Sparse.get false (pc + 3#32).toNat s.modified

/-- `pred_next_pc`: the pc of the next younger in-flight instruction, or `fetch_pc` if there is none (R86). -/
def State.nextFetched (s : State) : Word :=
  match s.inflight with
  | [] => s.fetchPc
  | d :: _ => d.pc

/-- The inputs of the transaction that executes `d`, which has left the in-flight list: `pc`, `pred_next_pc`, and a bundle's two
source values. A word's source values are fetched by its meaning (R57). -/
def State.portsFor (d : InFlight) (s : State) : Ports :=
  match d.item with
  | .word _ => { s.ports with pc := d.pc, predNextPc := s.nextFetched }
  | .bundle w =>
    let v := s.sourceValues (Bundle.unpack w) d.source
    { pc := d.pc, rs1Value := v.1, rs2Value := v.2, predNextPc := s.nextFetched }

/-- The state an instruction executes in: the ticks before it, then its inputs on the ports. -/
def State.issue (d : InFlight) (s : State) : State := { s.freeTicks with ports := s.portsFor d }

/-- The state with the oldest in-flight instruction taken out. -/
def State.dropOldest (s : State) : State := { s with inflight := s.inflight.tail }

end Sys2Proof.Machine
end

