-- ==== Sys2Proof/Machine/Issue.lean ====
section
/-! DEFINITION. What one step does: the next external event, or with none scheduled the execution of the oldest fetched instruction,
after a fetch where nothing is in flight (log 11). -/

namespace Sys2Proof.Machine

/-- The block executes `d`, which has left the in-flight list (R12, R55). -/
def runEntry (d : InFlight) (s : State) : Host.Outcome State Fault Refusal :=
  if s.isModified d.pc then .refused (.modifiedInstruction d.pc)
  else
    match decode d.item with
    | .error e => .refused (.undecodable e)
    | .ok i => exec i (s.issue d)

/-- The oldest in-flight instruction executes; with none in flight nothing happens. -/
def runOldest (s : State) : Host.Outcome State Fault Refusal :=
  match s.inflight with
  | [] => .next s
  | d :: _ => runEntry d s.dropOldest

/-- One event of an external agent. -/
def runEvent (e : Event) (s : State) : Host.Outcome State Fault Refusal :=
  match e with
  | .cycleTick => .next s.cycleTick
  | .retireTick => .next s.retireTick
  | .predict pc => .next { s with predictOut := s.predict pc }
  | .fetch => s.tryFetch (.word (s.instrWord s.fetchPc)) .regFile
  | .fetchBundle w src => s.tryFetch (.bundle w) src
  | .execute => runOldest s
  | .stallSet => .next { s with fetchStall := true }
  | .stallRelease => .next { s with fetchStall := false }

/-- One instruction with no event scheduled: the oldest in flight, or else the one fetched now. While a stall is pending and
nothing is in flight the machine waits (R16). -/
def runInstruction (s : State) : Host.Outcome State Fault Refusal :=
  match s.inflight with
  | _ :: _ => runOldest s
  | [] =>
    match runEvent .fetch s with
    | .next s' => runOldest s'
    | .fault f => .fault f
    | .refused r => .refused r

/-- One step of the machine. Once `fatal` is 1 no step exists (R25, R137). -/
def stepMachine (s : State) : Host.Outcome State Fault Refusal :=
  if s.fatal then .fault (.halted s.fatalCause)
  else
    match s.schedule with
    | e :: rest => runEvent e { s with schedule := rest }
    | [] => runInstruction s

/-- The bytes of a word placed in instruction memory from `a` up. -/
def State.placeWord (a : Word) (w : BitVec 32) (s : State) : State :=
  { s with
    mem := match s.cfg.instrSpace with | .unified => writeBytes s.mem a (bytesOfWord w) | .separate => s.mem
    imem := match s.cfg.instrSpace with | .unified => s.imem | .separate => writeBytes s.imem a (bytesOfWord w) }

/-- The state with nothing scheduled, in flight, stalled or counted as modified, and `fetch_pc` on a word boundary. -/
def State.readyToFetch (s : State) : State :=
  { s with schedule := [], inflight := [], fetchStall := false, modified := [], fetchPc := s.fetchPc &&& 0xFFFFFFFC#32 }

/-- The state whose very next step fetches and runs `item`: a word stands in instruction memory at `fetch_pc`, a bundle stands
fetched (log 8). -/
def State.withItem (item : Fetched) (s : State) : State :=
  match item with
  | .word w => s.readyToFetch.placeWord s.readyToFetch.fetchPc w
  | .bundle w => s.readyToFetch.fetchItem (.bundle w) .regFile

end Sys2Proof.Machine
end

