-- ==== Sys2Proof/Machine/Step.lean ====
section
/-! DEFINITION. The machine's step, and the state whose next step runs a given table word. -/

namespace Sys2Proof.Machine

/-- One step (R12, R55; log 11). -/
def step (s : State) : Host.Outcome State Fault Refusal := stepMachine s

/-- `s` with the instruction whose bits are `w` stored where `step` takes its next instruction (log 8). -/
def State.withFetchWord (s : State) (nbits w : Nat) : State := s.withItem (tableItem nbits w)

end Sys2Proof.Machine
end

