-- ==== Sys2Proof/Machine/Pseudo.lean ====
section
/-! DEFINITION. The pseudo-instructions of 30_encoding.md R59 and the rows they expand to. A label operand stands as its offset from
the instruction's own pc; an expansion's `none` is an operand no RV32 field can hold (log 26). -/

namespace Sys2Proof.Machine

/-- The pseudo-instructions of R59. -/
inductive Pseudo where
  | nop
  | mv (rd rs : RegIdx)
  | not (rd rs : RegIdx)
  | neg (rd rs : RegIdx)
  | seqz (rd rs : RegIdx)
  | snez (rd rs : RegIdx)
  | sltz (rd rs : RegIdx)
  | sgtz (rd rs : RegIdx)
  | li (rd : RegIdx) (imm : Word)
  | beqz (rs : RegIdx) (off : BitVec 13)
  | bnez (rs : RegIdx) (off : BitVec 13)
  | bltz (rs : RegIdx) (off : BitVec 13)
  | bgez (rs : RegIdx) (off : BitVec 13)
  | blez (rs : RegIdx) (off : BitVec 13)
  | bgtz (rs : RegIdx) (off : BitVec 13)
  | bgt (a b : RegIdx) (off : BitVec 13)
  | ble (a b : RegIdx) (off : BitVec 13)
  | bgtu (a b : RegIdx) (off : BitVec 13)
  | bleu (a b : RegIdx) (off : BitVec 13)
  | j (off : BitVec 21)
  | jal (off : BitVec 21)
  | jr (rs : RegIdx)
  | jalr (rs : RegIdx)
  | ret
  | call (off : Word)
  | csrr (rd : RegIdx) (csr : BitVec 12)
  | csrw (csr : BitVec 12) (rs : RegIdx)
  | csrs (csr : BitVec 12) (rs : RegIdx)
  | csrc (csr : BitVec 12) (rs : RegIdx)
  | csrwi (csr : BitVec 12) (z : BitVec 5)
  | csrsi (csr : BitVec 12) (z : BitVec 5)
  | csrci (csr : BitVec 12) (z : BitVec 5)
  | rdcycle (rd : RegIdx)
  | rdcycleh (rd : RegIdx)
  | rdinstret (rd : RegIdx)
  | rdinstreth (rd : RegIdx)
deriving DecidableEq, Repr

/-- The upper 20 bits of `(v + 0x800) >> 12` with an arithmetic shift (R59). -/
def hi20 (v : Word) : BitVec 20 := ((v + 0x800#32).sshiftRight 12).extractLsb' 0 20

/-- The low part `v - (hi << 12)`, a number of 12 bits (R59). -/
def lo12 (v : Word) : BitVec 12 := (v - immU (hi20 v)).extractLsb' 0 12

/-- The value of `v` lies in -2048..2047 (R59). -/
def fits12 (v : Word) : Bool := decide (-2048 ≤ v.toInt) && decide (v.toInt ≤ 2047)

/-- The two-word form of a far value. -/
def expandLi (rd : RegIdx) (imm : Word) : List Instr :=
  if fits12 imm then [.addi rd 0#5 (imm.extractLsb' 0 12)] else [.lui rd (hi20 imm), .addi rd rd (lo12 imm)]

/-- The read of a counter address, where a CSR word can name it. -/
def expandRead (rd : RegIdx) (a : Word) : Option (List Instr) :=
  if a.toNat < 2 ^ 12 then some [.csrrs rd 0#5 (a.extractLsb' 0 12)] else none

/-- The expansions of R59. -/
def Pseudo.expand (c : Config) : Pseudo → Option (List Instr)
  | .nop => some [.addi 0#5 0#5 0#12]
  | .mv rd rs => some [.addi rd rs 0#12]
  | .not rd rs => some [.xori rd rs 0xFFF#12]
  | .neg rd rs => some [.sub rd 0#5 rs]
  | .seqz rd rs => some [.sltiu rd rs 1#12]
  | .snez rd rs => some [.sltu rd 0#5 rs]
  | .sltz rd rs => some [.slt rd rs 0#5]
  | .sgtz rd rs => some [.slt rd 0#5 rs]
  | .li rd imm => some (expandLi rd imm)
  | .beqz rs off => some [.beq rs 0#5 off]
  | .bnez rs off => some [.bne rs 0#5 off]
  | .bltz rs off => some [.blt rs 0#5 off]
  | .bgez rs off => some [.bge rs 0#5 off]
  | .blez rs off => some [.bge 0#5 rs off]
  | .bgtz rs off => some [.blt 0#5 rs off]
  | .bgt a b off => some [.blt b a off]
  | .ble a b off => some [.bge b a off]
  | .bgtu a b off => some [.bltu b a off]
  | .bleu a b off => some [.bgeu b a off]
  | .j off => some [.jal 0#5 off]
  | .jal off => some [.jal 1#5 off]
  | .jr rs => some [.jalr 0#5 rs 0#12]
  | .jalr rs => some [.jalr 1#5 rs 0#12]
  | .ret => some [.jalr 0#5 1#5 0#12]
  | .call off => some [.auipc 1#5 (hi20 off), .jalr 1#5 1#5 (lo12 off)]
  | .csrr rd csr => some [.csrrs rd 0#5 csr]
  | .csrw csr rs => some [.csrrw 0#5 rs csr]
  | .csrs csr rs => some [.csrrs 0#5 rs csr]
  | .csrc csr rs => some [.csrrc 0#5 rs csr]
  | .csrwi csr z => some [.csrrwi 0#5 z csr]
  | .csrsi csr z => some [.csrrsi 0#5 z csr]
  | .csrci csr z => some [.csrrci 0#5 z csr]
  | .rdcycle rd => expandRead rd c.cycleLo
  | .rdcycleh rd => expandRead rd c.cycleHi
  | .rdinstret rd => expandRead rd c.instretLo
  | .rdinstreth rd => expandRead rd c.instretHi

end Sys2Proof.Machine
end

