-- ==== Sys2Proof/Safety.lean ====
section
/-! DEFINITION. What counts as a good state, and what an outcome leaves in the block's registers, in the terms claims use. -/

namespace Sys2Proof.Machine

/-- Every listed BTB entry's tag fits its 30 - B bits (R21, TAG_BITS of R9). -/
def btbTagsFit (c : Config) (btb : List (Nat × BtbEntry)) : Bool :=
  btb.all (fun e => decide (e.2.tag.toNat < 2 ^ (30 - c.btbIndexBits)))

/-- The predictor's state stays in its tables: indices below 2^B and 2^H, tags and history within their widths (R21 to R23,
R123), each table in its canonical form. -/
def State.predictorOk (s : State) : Bool :=
  Sparse.wf BtbEntry.empty (2 ^ s.cfg.btbIndexBits) s.btb && btbTagsFit s.cfg s.btb
    && Sparse.wf s.cfg.bhtInit (2 ^ s.cfg.histBits) s.bht && decide (s.bhr.toNat < 2 ^ s.cfg.histBits)

/-- The memories and the set of modified addresses are in canonical form. -/
def State.memoriesOk (s : State) : Bool :=
  Memory.wf s.mem && Memory.wf s.imem && Sparse.wf false (2 ^ 32) s.modified

/-- `fatal_cause` names a cause only once `fatal` is 1 (R25, R136). -/
def State.fatalOk (s : State) : Bool := s.fatal || s.fatalCause == 0#4

/-- The invariant of the machine: a legal configuration (R9), the predictor in its tables, the memories in canonical form, the
fatal registers consistent. -/
def State.ok (s : State) : Bool := s.cfg.wf && s.predictorOk && s.memoriesOk && s.fatalOk

/-- The block's registers after an outcome: a Fatal latches `fatal` and `fatal_cause` and nothing else (R25, R137, R138). -/
def State.after (s : State) (o : Host.Outcome State Fault Refusal) : State :=
  match o with
  | .next t => t
  | .fault (.fatal c) => s.latchFatal c
  | .fault (.halted _) => s
  | .refused _ => s

/-- The outcome is a next state. -/
def completes (o : Host.Outcome State Fault Refusal) : Bool :=
  match o with
  | .next _ => true
  | .fault _ => false
  | .refused _ => false

/-! ### What a transaction leaves, in the spec's terms -/

/-- The register file after `v` is written back at `rd`; register 0 ignores the write (D24). -/
def State.regsWith (rd : RegIdx) (v : Word) (s : State) : Vector Word 32 :=
  if rd = 0#5 then s.regs else s.regs.set rd.toNat v rd.isLt

/-- The state after a transaction whose `br_op` is NONE (R91): `wb` written back at `rd`, and under PREDICTION_COMPARE a redirect to
pc + 4 where fetch went elsewhere (R86). `alu` is the ALU result, which FALLTHROUGH_COMPARE drives on `redirect_pc` (R85). -/
def State.afterNone (rd : RegIdx) (alu wb : Word) (s : State) : State :=
  let next := fallthroughOf s.ports.pc
  let mis := s.cfg.redirectPolicy == .predictionCompare && next != s.ports.predNextPc
  { s with
    regs := s.regsWith rd wb
    fetchPc := if mis then next else s.fetchPc
    fetchStall := if mis then false else s.fetchStall
    inflight := if mis then [] else s.inflight
    modified := if mis then [] else s.modified
    out := {
      wbValue := wb, wbRd := rd, taken := false, redirect := mis, flush := mis
      redirectPc := if s.cfg.redirectPolicy = .predictionCompare then next else alu } }

/-- The state after a branch or jump: `wb` written back at `rd`, one Update (R89), and the redirect of R85 (where `may` says that the op
is a conditional branch or JALR) or of R86. -/
def State.afterBranch (rd : RegIdx) (wb : Word) (taken may : Bool) (target : Word) (s : State) : State :=
  let next := if taken then target else fallthroughOf s.ports.pc
  let mis :=
    match s.cfg.redirectPolicy with
    | .fallthroughCompare => may && taken && target != fallthroughOf s.ports.pc
    | .predictionCompare => next != s.ports.predNextPc
  let u := s.update true s.ports.pc next taken
  { s with
    btb := u.btb
    bht := u.bht
    bhr := u.bhr
    regs := s.regsWith rd wb
    fetchPc := if mis then next else s.fetchPc
    fetchStall := if mis then false else s.fetchStall
    inflight := if mis then [] else s.inflight
    modified := if mis then [] else s.modified
    out := {
      wbValue := wb, wbRd := rd, taken := taken, redirect := mis, flush := mis
      redirectPc := if s.cfg.redirectPolicy = .predictionCompare then next else target } }

/-! ### What an instruction names -/

/-- The bundle a native row is executed as: its own bits put into the bundle it carries; none for an RV32 row. -/
def nativeBundle (i : Instr) : Option Bundle :=
  match i.encode with
  | .bundle w => some (Bundle.unpack w)
  | .word _ => none

/-- The six ill-formed class rows (R52). -/
def isIllegalRow : Instr → Bool
  | .illegalLoadStore _ | .illegalLoadCsr _ | .illegalStoreCsr _ | .illegalLoadBranch _ | .illegalStoreBranch _
  | .illegalCsrBranch _ => true
  | _ => false

/-- The `br_op` an instruction executes with (R48, R57). -/
def branchOpOf (i : Instr) : BitVec 4 :=
  match i with
  | .jal _ _ => 1#4
  | .jalr _ _ _ => 2#4
  | .beq _ _ _ => 3#4
  | .bne _ _ _ => 4#4
  | .blt _ _ _ => 5#4
  | .bge _ _ _ => 6#4
  | .bltu _ _ _ => 7#4
  | .bgeu _ _ _ => 8#4
  | i =>
    match nativeBundle i with
    | some b => b.brOp
    | none => 0#4

/-- The rows that R58 gives no bundle. -/
def isRefusedRow : Instr → Bool
  | .div _ _ _ | .divu _ _ _ | .rem _ _ _ | .remu _ _ _ | .ecall | .ebreak | .fenceI _ _ _ => true
  | _ => false

/-- The register an instruction's `wb_value` is written back at; register 0 where it has none (R57). -/
def destinationOf (i : Instr) : RegIdx :=
  match nativeBundle i with
  | some b => b.rd
  | none =>
    match i with
    | .lui rd _ | .auipc rd _ | .jal rd _ | .jalr rd _ _ | .lb rd _ _ | .lh rd _ _ | .lw rd _ _ | .lbu rd _ _ | .lhu rd _ _
    | .addi rd _ _ | .slti rd _ _ | .sltiu rd _ _ | .xori rd _ _ | .ori rd _ _ | .andi rd _ _ | .slli rd _ _ | .srli rd _ _
    | .srai rd _ _ | .add rd _ _ | .sub rd _ _ | .sll rd _ _ | .slt rd _ _ | .sltu rd _ _ | .xor rd _ _ | .srl rd _ _
    | .sra rd _ _ | .or rd _ _ | .and rd _ _ | .mul rd _ _ | .mulh rd _ _ | .mulhsu rd _ _ | .mulhu rd _ _
    | .csrrw rd _ _ | .csrrs rd _ _ | .csrrc rd _ _ | .csrrwi rd _ _ | .csrrsi rd _ _ | .csrrci rd _ _ => rd
    | _ => 0#5

/-- Where a bundle stores and how wide: the ALU result and the width of `func3` (R102, R103); none for a bundle that is no store. -/
def bundleStoreTarget (b : Bundle) (s : State) : Option (Word × Width) :=
  if b.isStore then
    match compute b s.ports, widthOf b.func3 with
    | .ok a, .ok w => some (a, w)
    | _, _ => none
  else none

/-- Where an instruction stores and how wide: a store bundle's target, `x[rs1]` plus the immediate for an RV32 store (R57); none for
a form that stores nothing. -/
def storeTargetOf (i : Instr) (s : State) : Option (Word × Width) :=
  match i with
  | .sb rs1 _ imm => some (s.readReg rs1 + sext12 imm, .byte)
  | .sh rs1 _ imm => some (s.readReg rs1 + sext12 imm, .half)
  | .sw rs1 _ imm => some (s.readReg rs1 + sext12 imm, .word)
  | i =>
    match nativeBundle i with
    | none => none
    | some b => bundleStoreTarget b s

/-- Where a bundle branches or jumps to if taken: the ALU result, bit 0 cleared for JALR (R83); none for a bundle whose `br_op` is
NONE. -/
def bundleJumpTarget (b : Bundle) (s : State) : Option Word :=
  if b.brOp = 0#4 then none
  else
    match compute b s.ports with
    | .ok v => some (targetOf b.brOp v)
    | .error _ => none

/-- Where an instruction branches or jumps to if taken: a bundle's target, pc plus the offset for JAL and the conditional branches,
`x[rs1]` plus the immediate with bit 0 cleared for JALR (R57, R83); none for any other instruction. -/
def jumpTargetOf (i : Instr) (s : State) : Option Word :=
  match i with
  | .jal _ off => some (s.ports.pc + sext21 off)
  | .jalr _ rs1 imm => some ((s.readReg rs1 + sext12 imm) &&& 0xFFFFFFFE#32)
  | .beq _ _ off | .bne _ _ off | .blt _ _ off | .bge _ _ off | .bltu _ _ off | .bgeu _ _ off => some (s.ports.pc + sext13 off)
  | i =>
    match nativeBundle i with
    | none => none
    | some b => bundleJumpTarget b s

/-! ### The stream fetch delivers -/

/-- The address that follows the word `w` at `pc` where fetch predicts only fallthrough and steers JAL (R90, R132). -/
def wordSuccessor (pc : Word) (w : BitVec 32) : Word :=
  if opcodeOf w = 0x6F#7 then pc + sext21 (immJOf w) else fallthroughOf pc

/-- Every in-flight instruction is a word, and each one's successor is the next one's pc, the last one's `next`. -/
def chained (next : Word) : List InFlight → Bool
  | [] => true
  | d :: ds =>
    (match d.item with
      | .word w =>
        wordSuccessor d.pc w == (match ds with | [] => next | e :: _ => e.pc)
      | .bundle _ => false) && chained next ds

/-- The in-flight instructions are words fetched one after another up to `fetch_pc`. -/
def State.fetchChain (s : State) : Bool := chained s.fetchPc s.inflight

/-- No bundle is among the events to come. -/
def noBundleFetch (es : List Event) : Bool :=
  es.all (fun e => match e with | .fetchBundle _ _ => false | _ => true)

/-! ### The rows of the RV32 mapping -/

/-- Match and mask of the jump, branch and upper-immediate rows, as R57 lists them. -/
def rv32Jumps : List (BitVec 32 × BitVec 32) :=
  [(0x00000037#32, 0x0000007F#32), (0x00000017#32, 0x0000007F#32), (0x0000006F#32, 0x0000007F#32), (0x00000067#32, 0x0000707F#32),
   (0x00000063#32, 0x0000707F#32), (0x00001063#32, 0x0000707F#32), (0x00004063#32, 0x0000707F#32), (0x00005063#32, 0x0000707F#32),
   (0x00006063#32, 0x0000707F#32), (0x00007063#32, 0x0000707F#32)]

/-- Match and mask of the load and store rows, as R57 lists them. -/
def rv32Memory : List (BitVec 32 × BitVec 32) :=
  [(0x00000003#32, 0x0000707F#32), (0x00001003#32, 0x0000707F#32), (0x00002003#32, 0x0000707F#32), (0x00004003#32, 0x0000707F#32),
   (0x00005003#32, 0x0000707F#32), (0x00000023#32, 0x0000707F#32), (0x00001023#32, 0x0000707F#32), (0x00002023#32, 0x0000707F#32)]

/-- Match and mask of the register-immediate rows, as R57 lists them. -/
def rv32Immediate : List (BitVec 32 × BitVec 32) :=
  [(0x00000013#32, 0x0000707F#32), (0x00002013#32, 0x0000707F#32), (0x00003013#32, 0x0000707F#32), (0x00004013#32, 0x0000707F#32),
   (0x00006013#32, 0x0000707F#32), (0x00007013#32, 0x0000707F#32), (0x00001013#32, 0xFE00707F#32), (0x00005013#32, 0xFE00707F#32),
   (0x40005013#32, 0xFE00707F#32)]

/-- Match and mask of the register-register rows, as R57 lists them. -/
def rv32Register : List (BitVec 32 × BitVec 32) :=
  [(0x00000033#32, 0xFE00707F#32), (0x40000033#32, 0xFE00707F#32), (0x00001033#32, 0xFE00707F#32), (0x00002033#32, 0xFE00707F#32),
   (0x00003033#32, 0xFE00707F#32), (0x00004033#32, 0xFE00707F#32), (0x00005033#32, 0xFE00707F#32), (0x40005033#32, 0xFE00707F#32),
   (0x00006033#32, 0xFE00707F#32), (0x00007033#32, 0xFE00707F#32), (0x02000033#32, 0xFE00707F#32), (0x02001033#32, 0xFE00707F#32),
   (0x02002033#32, 0xFE00707F#32), (0x02003033#32, 0xFE00707F#32)]

/-- Match and mask of the FENCE and CSR rows, as R57 lists them. -/
def rv32System : List (BitVec 32 × BitVec 32) :=
  [(0x0000000F#32, 0x0000707F#32), (0x00001073#32, 0x0000707F#32), (0x00002073#32, 0x0000707F#32), (0x00003073#32, 0x0000707F#32),
   (0x00005073#32, 0x0000707F#32), (0x00006073#32, 0x0000707F#32), (0x00007073#32, 0x0000707F#32)]

/-- Match and mask of every row of R57. -/
def rv32Rows : List (BitVec 32 × BitVec 32) := rv32Jumps ++ rv32Memory ++ rv32Immediate ++ rv32Register ++ rv32System

/-! ### Which fatal a transaction meets -/

/-- The first fatal condition a bundle meets, in the order of R139, from the conditions as R136's table words them. -/
def fatalCauseOf (b : Bundle) (s : State) : Option FatalCause :=
  if 1 < b.isLoad.toNat + b.isStore.toNat + b.isCsr.toNat ∨ ((b.isLoad ∨ b.isStore ∨ b.isCsr) ∧ b.brOp ≠ 0#4) then
    some .illegalBundle
  else if b.aluOp = 15#4 then some .badAluOp
  else if 9 ≤ b.brOp.toNat then some .badBranchOp
  else if (b.isLoad ∨ b.isStore) ∧ b.func3.toNat % 4 = 3 then some .badMemWidth
  else if b.isCsr ∧ b.imm ∉ s.cfg.csrInert ∧ b.imm ∉ s.cfg.counterAddrs then some .csrReadUnmapped
  else if b.isCsr ∧ b.imm ∉ s.cfg.csrInert ∧ compute b s.ports ≠ s.csrRead b.imm then some .csrWriteReadonly
  else none

/-- Instructions executed one after another, up to the first that gives no next state. -/
def execAll : List Instr → State → Host.Outcome State Fault Refusal
  | [], s => .next s
  | i :: is, s =>
    match exec i s with
    | .next t => execAll is t
    | .fault f => .fault f
    | .refused r => .refused r

end Sys2Proof.Machine
end

