-- ==== Sys2Proof/Certificates/Slice0/Obligations.lean ====
section
/-! DEFINITION. The statements about the model: what the rules of spec/ say of instructions, transactions, fetch, reset and runs. -/

open Sys2Proof Sys2Proof.Machine

/-- Decoding the encoding of a well-formed instruction gives it back (derived: 30_encoding.md R46, 30_encoding.md R47,
30_encoding.md R48, 30_encoding.md R49, 30_encoding.md R56, 30_encoding.md R57). The model's own choice in it: log 6. -/
def Obligations.DecodeEncodeRoundTrip : Prop :=
  ∀ i : Instr, i.wf = true → decode i.encode = .ok i

/-- Whatever decodes is well-formed and encodes back to the same bits (derived: 30_encoding.md R46, 30_encoding.md R53,
30_encoding.md R56, 30_encoding.md R57). The model's own choice in it: log 6, log 18. -/
def Obligations.EncodeDecodeRoundTrip : Prop :=
  ∀ (f : Fetched) (i : Instr), decode f = .ok i → i.wf = true ∧ i.encode = f

/-- Words and bundles of the spec's programs decode to the instructions they stand for (derived: 30_encoding.md R46,
30_encoding.md R56, 30_encoding.md R57, 95_test_vectors.md section 4, 30_encoding.md R58). The model's own choice in it: log
6, log 18. -/
def Obligations.DecodesSpecWords : Prop :=
  decode (.word 0x00400093#32) = .ok (.addi 1#5 0#5 4#12) ∧
    decode (.word 0xFE009CE3#32) = .ok (.bne 1#5 0#5 0x1FF8#13) ∧
    decode (.word 0x10202023#32) = .ok (.sw 0#5 2#5 0x100#12) ∧
    decode (.word 0x20205483#32) = .ok (.lhu 9#5 0#5 0x202#12) ∧
    decode (.word 0x018000EF#32) = .ok (.jal 1#5 0x18#21) ∧
    decode (.word 0x340616F3#32) = .ok (.csrrw 13#5 12#5 0x340#12) ∧
    decode (.word 0x4040D293#32) = .ok (.srai 5#5 1#5 4#5) ∧
    decode (.word 0x00000073#32) = .ok .ecall ∧
    decode (.word 0x02C5C533#32) = .ok (.div 10#5 11#5 12#5) ∧
    decode (.bundle 0x0000000008840001#64) = .ok (.aluAdd
      { aluOp := 1#4, brOp := 0#4, func3 := 0#3, op1Pc := false, op1Inv := false, op2Imm := false, isLoad := false,
        isStore := false, isCsr := false, rd := 2#5, rs1 := 2#5, rs2 := 1#5, imm := 0#32 }) ∧
    decode (.bundle 0xFFFFFFF800402841#64) = .ok (.brBne
      { aluOp := 1#4, brOp := 4#4, func3 := 0#3, op1Pc := true, op1Inv := false, op2Imm := true, isLoad := false,
        isStore := false, isCsr := false, rd := 0#5, rs1 := 1#5, rs2 := 0#5, imm := 0xFFFFFFF8#32 }) ∧
    decode (.bundle 0x0000020400166201#64) = .ok (.memLw
      { aluOp := 1#4, brOp := 0#4, func3 := 2#3, op1Pc := false, op1Inv := false, op2Imm := true, isLoad := true,
        isStore := false, isCsr := false, rd := 11#5, rs1 := 0#5, rs2 := 0#5, imm := 0x204#32 })

/-- An RV32 word that matches no row of R57 is not executed (derived: 30_encoding.md R57, 30_encoding.md R58). The model's own
choice in it: log 18. -/
def Obligations.OffTableWordsAreRefused : Prop :=
  ∀ w : BitVec 32, (∀ r ∈ rv32Rows, w &&& r.2 ≠ r.1) →
    (∃ e, decode (.word w) = .error e) ∨
      ∃ i n, decode (.word w) = .ok i ∧ ∀ s : State, exec i s = .refused (.noBundle n)

/-- Every RV32 word that matches a row of R57 has an instruction that executes (derived: 30_encoding.md R57). -/
def Obligations.TableWordsDecode : Prop :=
  ∀ w : BitVec 32, (∃ r ∈ rv32Rows, w &&& r.2 = r.1) →
    ∃ i, decode (.word w) = .ok i ∧ ∀ (s : State) (r : Refusal), exec i s ≠ .refused r

/-- A bundle executes the same under every row of the table that it matches (derived: 30_encoding.md R53, 30_encoding.md R55).
The model's own choice in it: log 6. -/
def Obligations.RowNamesAgree : Prop :=
  ∀ (i : Instr) (b : Bundle) (s : State), nativeBundle i = some b → (isIllegalRow i = true → i.wf = true) →
    exec i s = exec b.classify s

/-- The ALU result of every selector code from the operand forms (derived: 30_encoding.md R47, 30_encoding.md R51, 40_alu.md
R61, 40_alu.md R62, 40_alu.md R63, 40_alu.md R65 to R80). -/
def Obligations.ComputeTable : Prop :=
  ∀ (b : Bundle) (p : Ports),
    operand1 b p = (match b.op1Pc, b.op1Inv with
      | false, false => p.rs1Value | true, false => p.pc | false, true => ~~~p.rs1Value | true, true => ~~~p.pc) ∧
    operand2 b p = (match b.op2Imm with | false => p.rs2Value | true => b.imm) ∧
    (let x := operand1 b p
     let y := operand2 b p
     let n := y.toNat % 32
     compute (b.asAlu 0#4) p = .ok 0#32 ∧ compute (b.asAlu 1#4) p = .ok (x + y) ∧ compute (b.asAlu 2#4) p = .ok (x - y) ∧
     compute (b.asAlu 3#4) p = .ok (x &&& y) ∧ compute (b.asAlu 4#4) p = .ok (x ||| y) ∧ compute (b.asAlu 5#4) p = .ok (x ^^^ y) ∧
     compute (b.asAlu 6#4) p = .ok (x <<< n) ∧ compute (b.asAlu 7#4) p = .ok (x >>> n) ∧
     compute (b.asAlu 8#4) p = .ok (x.sshiftRight n) ∧
     compute (b.asAlu 9#4) p = .ok (if x.toInt < y.toInt then 1#32 else 0#32) ∧
     compute (b.asAlu 10#4) p = .ok (if x.toNat < y.toNat then 1#32 else 0#32) ∧
     compute (b.asAlu 11#4) p = .ok (BitVec.ofInt 32 (x.toInt * y.toInt)) ∧
     compute (b.asAlu 12#4) p = .ok ((BitVec.ofInt 64 (x.toInt * y.toInt)).extractLsb' 32 32) ∧
     compute (b.asAlu 13#4) p = .ok ((BitVec.ofInt 64 (x.toInt * y.toNat)).extractLsb' 32 32) ∧
     compute (b.asAlu 14#4) p = .ok ((BitVec.ofNat 64 (x.toNat * y.toNat)).extractLsb' 32 32) ∧
     compute (b.asAlu 15#4) p = .error .badAluOp)

/-- NONE, ADD, SUB, AND, OR and XOR: result, completion and frame (derived: 40_alu.md R65, 40_alu.md R66, 40_alu.md R67,
40_alu.md R68, 40_alu.md R69, 40_alu.md R70). The model's own choice in it: log 3, log 25. -/
def Obligations.AluArithmeticLogicRows : Prop :=
  ∀ (b : Bundle) (s : State), s.fatal = false → b.noClass = true → b.brOp = 0#4 →
    let x := operand1 b s.ports
    let y := operand2 b s.ports
    exec (.aluNone b) s = .next (s.afterNone b.rd 0#32 0#32) ∧
      exec (.aluAdd b) s = .next (s.afterNone b.rd (BitVec.ofNat 32 (x.toNat + y.toNat)) (BitVec.ofNat 32 (x.toNat + y.toNat))) ∧
      exec (.aluSub b) s = .next (s.afterNone b.rd (BitVec.ofInt 32 (x.toInt - y.toInt)) (BitVec.ofInt 32 (x.toInt - y.toInt))) ∧
      exec (.aluAnd b) s = .next (s.afterNone b.rd (x &&& y) (x &&& y)) ∧
      exec (.aluOr b) s = .next (s.afterNone b.rd (x ||| y) (x ||| y)) ∧
      exec (.aluXor b) s = .next (s.afterNone b.rd (x ^^^ y) (x ^^^ y))

/-- SLL, SRL, SRA, LTI and LTU: result, completion and frame (derived: 40_alu.md R71, 40_alu.md R72, 40_alu.md R73, 40_alu.md
R74, 40_alu.md R75). The model's own choice in it: log 3, log 25. -/
def Obligations.AluShiftCompareRows : Prop :=
  ∀ (b : Bundle) (s : State), s.fatal = false → b.noClass = true → b.brOp = 0#4 →
    let x := operand1 b s.ports
    let y := operand2 b s.ports
    let n := y.toNat % 32
    let sll := BitVec.ofNat 32 (x.toNat * 2 ^ n)
    let srl := BitVec.ofNat 32 (x.toNat / 2 ^ n)
    let sra := BitVec.ofInt 32 (x.toInt / (2 : Int) ^ n)
    let lti := if x.toInt < y.toInt then 1#32 else 0#32
    let ltu := if x.toNat < y.toNat then 1#32 else 0#32
    exec (.aluSll b) s = .next (s.afterNone b.rd sll sll) ∧ exec (.aluSrl b) s = .next (s.afterNone b.rd srl srl) ∧
      exec (.aluSra b) s = .next (s.afterNone b.rd sra sra) ∧ exec (.aluLti b) s = .next (s.afterNone b.rd lti lti) ∧
      exec (.aluLtu b) s = .next (s.afterNone b.rd ltu ltu)

/-- MUL, MULH, MULHSU and MULHU: result, completion and frame (derived: 40_alu.md R76, 40_alu.md R77, 40_alu.md R78, 40_alu.md
R79). The model's own choice in it: log 3, log 25. -/
def Obligations.AluMultiplyRows : Prop :=
  ∀ (b : Bundle) (s : State), s.fatal = false → b.noClass = true → b.brOp = 0#4 →
    let x := operand1 b s.ports
    let y := operand2 b s.ports
    let mul := BitVec.ofInt 32 (x.toInt * y.toInt)
    let mulh := BitVec.ofInt 32 (x.toInt * y.toInt / (2 : Int) ^ 32)
    let mulhsu := BitVec.ofInt 32 (x.toInt * (y.toNat : Int) / (2 : Int) ^ 32)
    let mulhu := BitVec.ofNat 32 (x.toNat * y.toNat / 2 ^ 32)
    mul = BitVec.ofNat 32 (x.toNat * y.toNat) ∧
      exec (.aluMul b) s = .next (s.afterNone b.rd mul mul) ∧ exec (.aluMulh b) s = .next (s.afterNone b.rd mulh mulh) ∧
      exec (.aluMulhsu b) s = .next (s.afterNone b.rd mulhsu mulhsu) ∧
      exec (.aluMulhu b) s = .next (s.afterNone b.rd mulhu mulhu)

/-- The reserved selector rows and the ill-formed class rows raise their Fatal (derived: 30_encoding.md R52, 30_encoding.md R53,
40_alu.md R80, 41_branch.md R100, 42_loadstore.md R103, 60_exceptions.md R136, 60_exceptions.md R139). -/
def Obligations.ReservedRowsStop : Prop :=
  ∀ (b : Bundle) (s : State), s.fatal = false →
    let first (c : FatalCause) : Host.Outcome State Fault Refusal := if b.aluOp = 15#4 then raiseFatal .badAluOp else raiseFatal c
    let branch := if b.noClass then first .badBranchOp else raiseFatal .illegalBundle
    exec (.aluReserved15 b) s = (if b.classesLegal then raiseFatal .badAluOp else raiseFatal .illegalBundle) ∧
      exec (.brReserved9 b) s = branch ∧ exec (.brReserved10 b) s = branch ∧ exec (.brReserved11 b) s = branch ∧
      exec (.brReserved12 b) s = branch ∧ exec (.brReserved13 b) s = branch ∧ exec (.brReserved14 b) s = branch ∧
      exec (.brReserved15 b) s = branch ∧
      exec (.memLoadReserved3 b) s = first .badMemWidth ∧ exec (.memLoadReserved7 b) s = first .badMemWidth ∧
      exec (.memStoreReserved3 b) s = first .badMemWidth ∧
      exec (.illegalLoadStore b) s = raiseFatal .illegalBundle ∧ exec (.illegalLoadCsr b) s = raiseFatal .illegalBundle ∧
      exec (.illegalStoreCsr b) s = raiseFatal .illegalBundle ∧ exec (.illegalLoadBranch b) s = raiseFatal .illegalBundle ∧
      exec (.illegalStoreBranch b) s = raiseFatal .illegalBundle ∧ exec (.illegalCsrBranch b) s = raiseFatal .illegalBundle

/-- BR.NONE and PASS: the ALU result passes to write-back (derived: 41_branch.md R91, 42_loadstore.md R101). The model's own
choice in it: log 3, log 25. -/
def Obligations.NoneAndPassRows : Prop :=
  ∀ (b : Bundle) (s : State) (v : Word), s.fatal = false → b.noClass = true → b.brOp = 0#4 → compute b s.ports = .ok v →
    exec (.brNone b) s = .next (s.afterNone b.rd v v) ∧ exec (.pass b) s = .next (s.afterNone b.rd v v)

/-- BR.JAL: link value, Update, and no redirect under FALLTHROUGH_COMPARE (derived: 41_branch.md R92). The model's own choice in
it: log 3, log 25. -/
def Obligations.JalRow : Prop :=
  ∀ (b : Bundle) (s : State) (v : Word), s.fatal = false → b.noClass = true → compute b s.ports = .ok v →
    exec (.brJal b) s = .next (s.afterBranch b.rd (s.ports.pc + 4#32) true false v)

/-- BR.JALR: link value, Update, and the redirect to the target with bit 0 cleared (derived: 41_branch.md R93). The model's own
choice in it: log 3, log 25. -/
def Obligations.JalrRow : Prop :=
  ∀ (b : Bundle) (s : State) (v : Word), s.fatal = false → b.noClass = true → compute b s.ports = .ok v →
    exec (.brJalr b) s = .next (s.afterBranch b.rd (s.ports.pc + 4#32) true true (BitVec.ofNat 32 (2 * (v.toNat / 2))))

/-- The six conditional branch rows: outcome, Update, redirect and frame (derived: 41_branch.md R94, 41_branch.md R95,
41_branch.md R96, 41_branch.md R97, 41_branch.md R98, 41_branch.md R99). The model's own choice in it: log 3, log 25. -/
def Obligations.ConditionalBranchRows : Prop :=
  ∀ (b : Bundle) (s : State) (v : Word), s.fatal = false → b.noClass = true → compute b s.ports = .ok v →
    let x := s.ports.rs1Value
    let y := s.ports.rs2Value
    exec (.brBeq b) s = .next (s.afterBranch b.rd v (decide (x = y)) true v) ∧
      exec (.brBne b) s = .next (s.afterBranch b.rd v (decide (x ≠ y)) true v) ∧
      exec (.brBlt b) s = .next (s.afterBranch b.rd v (decide (x.toInt < y.toInt)) true v) ∧
      exec (.brBge b) s = .next (s.afterBranch b.rd v (decide (y.toInt ≤ x.toInt)) true v) ∧
      exec (.brBltu b) s = .next (s.afterBranch b.rd v (decide (x.toNat < y.toNat)) true v) ∧
      exec (.brBgeu b) s = .next (s.afterBranch b.rd v (decide (y.toNat ≤ x.toNat)) true v)

/-- Under FALLTHROUGH_COMPARE exactly a taken conditional branch or JALR away from pc + 4 redirects (derived: 41_branch.md R85,
41_branch.md R90). The model's own choice in it: log 25. -/
def Obligations.RedirectUnderFallthroughCompare : Prop :=
  ∀ (i : Instr) (s t : State), s.cfg.redirectPolicy = .fallthroughCompare → exec i s = .next t →
    (t.out.redirect = true ↔ 2 ≤ (branchOpOf i).toNat ∧ t.out.taken = true ∧ t.out.redirectPc ≠ s.ports.pc + 4#32)

/-- Under PREDICTION_COMPARE exactly an actual next pc, the target or pc + 4, that fetch did not fetch redirects (derived:
41_branch.md R86, 30_encoding.md R57, 41_branch.md R83). The model's own choice in it: log 19, log 25. -/
def Obligations.RedirectUnderPredictionCompare : Prop :=
  ∀ (i : Instr) (s t : State), s.cfg.redirectPolicy = .predictionCompare → exec i s = .next t →
    (t.out.redirect = true ↔ t.out.redirectPc ≠ s.ports.predNextPc) ∧
      (t.out.taken = false → t.out.redirectPc = s.ports.pc + 4#32) ∧
      (t.out.taken = true → jumpTargetOf i s = some t.out.redirectPc)

/-- The three effects of a redirect come together or not at all (stated: R87). -/
def Obligations.RedirectIsIndivisible : Prop :=
  ∀ (i : Instr) (s t : State), exec i s = .next t →
    t.out.flush = t.out.redirect ∧
      (t.out.redirect = true → t.fetchPc = t.out.redirectPc ∧ t.inflight = [] ∧ t.fetchStall = false) ∧
      (t.out.redirect = false → t.fetchPc = s.fetchPc ∧ t.inflight = s.inflight ∧ t.fetchStall = s.fetchStall)

/-- Every resolved branch or jump makes exactly one Update, and no other instruction makes any (derived: 10_state.md R24,
41_branch.md R89). The model's own choice in it: log 25. -/
def Obligations.OneUpdatePerBranch : Prop :=
  ∀ (i : Instr) (s t : State), exec i s = .next t →
    (branchOpOf i = 0#4 → t.btb = s.btb ∧ t.bht = s.bht ∧ t.bhr = s.bhr) ∧
      (branchOpOf i ≠ 0#4 →
        let u := s.update true s.ports.pc (if t.out.taken then t.out.redirectPc else s.ports.pc + 4#32) t.out.taken
        t.btb = u.btb ∧ t.bht = u.bht ∧ t.bhr = u.bhr)

/-- The six load rows: the value from the bytes of memory, completion and frame (derived: 42_loadstore.md R104, 42_loadstore.md
R105, 42_loadstore.md R106, 42_loadstore.md R107, 42_loadstore.md R108, 42_loadstore.md R109). The model's own choice in it:
log 3, log 25. -/
def Obligations.LoadRows : Prop :=
  ∀ (b : Bundle) (s : State) (a : Word), s.fatal = false → compute b s.ports = .ok a →
    let m0 := readByte s.mem a
    let m1 := readByte s.mem (a + 1#32)
    let m2 := readByte s.mem (a + 2#32)
    let m3 := readByte s.mem (a + 3#32)
    exec (.memLb b) s = .next (s.afterNone b.rd a (m0.signExtend 32)) ∧
      exec (.memLh b) s = .next (s.afterNone b.rd a ((m1 ++ m0).signExtend 32)) ∧
      exec (.memLw b) s = .next (s.afterNone b.rd a (m3 ++ m2 ++ m1 ++ m0)) ∧
      exec (.memLbu b) s = .next (s.afterNone b.rd a (m0.setWidth 32)) ∧
      exec (.memLhu b) s = .next (s.afterNone b.rd a ((m1 ++ m0).setWidth 32)) ∧
      exec (.memLoadF36 b) s = .next (s.afterNone b.rd a (m3 ++ m2 ++ m1 ++ m0)) ∧
      exec (.memLoadReserved3 b) s = raiseFatal .badMemWidth ∧ exec (.memLoadReserved7 b) s = raiseFatal .badMemWidth

/-- The three store rows: one store of the width's bytes of rs2_value at the ALU result (derived: 42_loadstore.md R110,
42_loadstore.md R111, 42_loadstore.md R112, 42_loadstore.md R113, 42_loadstore.md R115). The model's own choice in it: log
3, log 15, log 19, log 25. -/
def Obligations.StoreRows : Prop :=
  ∀ (b : Bundle) (s : State) (a : Word), s.fatal = false → compute b s.ports = .ok a →
    exec (.memSb b) s = .next ((s.storeTo a .byte s.ports.rs2Value).afterNone b.rd a a) ∧
      exec (.memSh b) s = .next ((s.storeTo a .half s.ports.rs2Value).afterNone b.rd a a) ∧
      exec (.memSw b) s = .next ((s.storeTo a .word s.ports.rs2Value).afterNone b.rd a a)

/-- A store that starts in the console range is one console write of its bytes; any other store writes its bytes to memory
(stated: R114). -/
def Obligations.ConsoleRouting : Prop :=
  ∀ (b : Bundle) (s : State) (a : Word), s.fatal = false → compute b s.ports = .ok a →
    let v := s.ports.rs2Value
    let b0 : Byte := BitVec.ofNat 8 v.toNat
    let b1 : Byte := BitVec.ofNat 8 (v.toNat / 2 ^ 8)
    let b2 : Byte := BitVec.ofNat 8 (v.toNat / 2 ^ 16)
    let b3 : Byte := BitVec.ofNat 8 (v.toNat / 2 ^ 24)
    let routed (t : State) (bytes : List Byte) (m : Word → Byte) : Prop :=
      if s.cfg.mmioBase.toNat ≤ a.toNat ∧ a.toNat < s.cfg.mmioBase.toNat + s.cfg.mmioSize then
        t.mem = s.mem ∧ t.console = s.console ++ [bytes]
      else t.console = s.console ∧ ∀ x, readByte t.mem x = m x
    (∃ t, exec (.memSb b) s = .next t ∧ routed t [b0] (fun x => if x = a then b0 else readByte s.mem x)) ∧
      (∃ t, exec (.memSh b) s = .next t ∧ routed t [b0, b1]
        (fun x => if x = a then b0 else if x = a + 1#32 then b1 else readByte s.mem x)) ∧
      (∃ t, exec (.memSw b) s = .next t ∧ routed t [b0, b1, b2, b3]
        (fun x => if x = a then b0 else if x = a + 1#32 then b1 else if x = a + 2#32 then b2 else if x = a + 3#32 then b3
          else readByte s.mem x))

/-- MemWrite sets exactly the n bytes from its address up, modulo 2^32 (stated: R30). -/
def Obligations.MemWriteBytes : Prop :=
  ∀ (m : Memory) (a : Word) (w : Width) (v : Word),
    (∀ k, k < w.bytes → readByte (memWrite m a w v) (a + BitVec.ofNat 32 k) = v.extractLsb' (8 * k) 8) ∧
      ∀ x, (∀ k, k < w.bytes → x ≠ a + BitVec.ofNat 32 k) → readByte (memWrite m a w v) x = readByte m x

/-- MemRead is little-endian and zero-filled, and mixed widths agree (derived: 20_memory.md R29, 20_memory.md R31, 20_memory.md
R32). -/
def Obligations.MemReadMixedWidths : Prop :=
  ∀ (m : Memory) (a v : Word),
    (∀ (w : Width) (k : Nat), k < 4 →
      (memRead m a w).extractLsb' (8 * k) 8 = if k < w.bytes then readByte m (a + BitVec.ofNat 32 k) else 0#8) ∧
      memRead m a .half = ((memRead m a .word).extractLsb' 0 16).setWidth 32 ∧
      memRead m (a + 2#32) .half = ((memRead m a .word).extractLsb' 16 16).setWidth 32 ∧
      memRead (memWrite m a .word v) a .word = v

/-- A word load after a word store to the same address returns the word, or the old memory where the store went to the console
(derived: 20_memory.md R36, 20_memory.md R39, 70_reset_and_hazards.md R162). The model's own choice in it: log 3. -/
def Obligations.LoadSeesLastStore : Prop :=
  ∀ (rs1 rs2 rd rs3 : RegIdx) (imm imm' : BitVec 12) (s t u : State),
    exec (.sw rs1 rs2 imm) s = .next t → exec (.lw rd rs3 imm') t = .next u →
    let a := s.readReg rs1 + imm.signExtend 32
    t.readReg rs3 + imm'.signExtend 32 = a → rd ≠ 0#5 →
    u.readReg rd = if Config.inConsole s.cfg a then memRead s.mem a .word else s.readReg rs2

/-- Memory changes only at the bytes an instruction stores to (derived: 20_memory.md R30, 42_loadstore.md R101, 42_loadstore.md
R102). The model's own choice in it: log 13. -/
def Obligations.MemoryFrame : Prop :=
  ∀ (i : Instr) (s t : State), exec i s = .next t →
    t.imem = s.imem ∧
      (storeTargetOf i s = none → (∀ x, readByte t.mem x = readByte s.mem x) ∧ t.console = s.console) ∧
      ∀ a w, storeTargetOf i s = some (a, w) → ∀ x, inAccess a w x = false → readByte t.mem x = readByte s.mem x

/-- Only the destination register changes, it receives wb_value, and x0 reads 0 (derived: 10_state.md R13, 92_eei_decisions.md
D24). The model's own choice in it: log 3. -/
def Obligations.RegisterFrame : Prop :=
  ∀ (i : Instr) (s t : State), exec i s = .next t →
    t.readReg 0#5 = 0#32 ∧ t.out.wbRd = destinationOf i ∧
      (∀ r, r ≠ destinationOf i → t.readReg r = s.readReg r) ∧
      (destinationOf i ≠ 0#5 → t.readReg (destinationOf i) = t.out.wbValue)

/-- No instruction changes the configuration, a counter, the fatal status or what the agents have scheduled (derived:
10_state.md R19, 41_branch.md R87, 43_csr.md R118, 43_csr.md R121, 70_reset_and_hazards.md R150, 10_state.md R25). The
model's own choice in it: log 10, log 11, log 17. -/
def Obligations.BlockFrame : Prop :=
  ∀ (i : Instr) (s t : State), exec i s = .next t →
    t.cfg = s.cfg ∧ t.cycle = s.cycle ∧ t.instret = s.instret ∧ t.fatal = s.fatal ∧ t.fatalCause = s.fatalCause ∧
      t.predictOut = s.predictOut ∧ t.schedule = s.schedule ∧ t.tickIndex = s.tickIndex ∧
      t.ports.pc = s.ports.pc ∧ t.ports.predNextPc = s.ports.predNextPc

/-- CsrRead and CsrWrite over the three classes of address (stated: R117, R118). -/
def Obligations.CsrFile : Prop :=
  ∀ (s : State) (a v : Word), s.cfg.wf = true →
    s.csrRead s.cfg.cycleLo = .ok (BitVec.ofNat 32 s.cycle.toNat) ∧
      s.csrRead s.cfg.cycleHi = .ok (BitVec.ofNat 32 (s.cycle.toNat / 2 ^ 32)) ∧
      s.csrRead s.cfg.instretLo = .ok (BitVec.ofNat 32 s.instret.toNat) ∧
      s.csrRead s.cfg.instretHi = .ok (BitVec.ofNat 32 (s.instret.toNat / 2 ^ 32)) ∧
      (a ∈ s.cfg.csrInert → s.csrRead a = .ok 0#32 ∧ s.csrWrite a v = .ok s) ∧
      (a ∈ s.cfg.counterAddrs → s.csrWrite a v = .error .csrWriteReadonly) ∧
      (a ∉ s.cfg.csrInert → a ∉ s.cfg.counterAddrs →
        s.csrRead a = .error .csrReadUnmapped ∧ s.csrWrite a v = .error .csrWriteUnmapped)

/-- CSR.ACCESS returns the old value, writes only a differing one, and fails as the address's class says (derived: 43_csr.md
R119). The model's own choice in it: log 3, log 19, log 25. -/
def Obligations.CsrAccessRow : Prop :=
  ∀ (b : Bundle) (s : State) (new old : Word), s.fatal = false → compute b s.ports = .ok new →
    (b.imm ∈ s.cfg.csrInert → exec (.csrAccess b) s = .next (s.afterNone b.rd new 0#32)) ∧
      (b.imm ∉ s.cfg.csrInert → b.imm ∉ s.cfg.counterAddrs → exec (.csrAccess b) s = raiseFatal .csrReadUnmapped) ∧
      (b.imm ∉ s.cfg.csrInert → s.csrRead b.imm = .ok old →
        exec (.csrAccess b) s = if new = old then .next (s.afterNone b.rd new old) else raiseFatal .csrWriteReadonly)

/-- The six RV32 CSR instructions: new value, when they write, and what they return (derived: 43_csr.md R120). The model's own
choice in it: log 3, log 19, log 24, log 25. -/
def Obligations.Rv32CsrResults : Prop :=
  ∀ (rd rs1 z : RegIdx) (csr : BitVec 12) (s : State), s.fatal = false →
    let a : Word := csr.setWidth 32
    let x := s.readReg rs1
    let zv : Word := z.setWidth 32
    (∀ c, s.csrRead a = .ok c →
      let done (writes : Bool) (v1 v2 new : Word) : Host.Outcome State Fault Refusal :=
        if a ∈ s.cfg.csrInert ∨ writes = false then .next ((s.withOperands v1 v2).afterNone rd new c)
        else raiseFatal .csrWriteReadonly
      exec (.csrrw rd rs1 csr) s = done (x != c) x 0#32 x ∧
        exec (.csrrs rd rs1 csr) s = done (x &&& ~~~c != 0#32) x c (x ||| c) ∧
        exec (.csrrc rd rs1 csr) s = done (x &&& c != 0#32) x c (~~~x &&& c) ∧
        exec (.csrrwi rd z csr) s = done (zv != c) zv 0#32 zv ∧
        exec (.csrrsi rd z csr) s = done (zv &&& ~~~c != 0#32) zv c (zv ||| c) ∧
        exec (.csrrci rd z csr) s = done (zv &&& c != 0#32) zv c (~~~zv &&& c)) ∧
      (a ∉ s.cfg.csrInert → a ∉ s.cfg.counterAddrs →
        exec (.csrrw rd rs1 csr) s = raiseFatal .csrReadUnmapped ∧ exec (.csrrs rd rs1 csr) s = raiseFatal .csrReadUnmapped ∧
        exec (.csrrc rd rs1 csr) s = raiseFatal .csrReadUnmapped ∧ exec (.csrrwi rd z csr) s = raiseFatal .csrReadUnmapped ∧
        exec (.csrrsi rd z csr) s = raiseFatal .csrReadUnmapped ∧ exec (.csrrci rd z csr) s = raiseFatal .csrReadUnmapped)

/-- The external events: counter ticks, Predict queries and the fetch stall (derived: 00_scope.md R11, 10_state.md R16,
43_csr.md R121). The model's own choice in it: log 11, log 16. -/
def Obligations.TicksAndQueries : Prop :=
  ∀ (s : State) (rest : List Event) (pc : Word), s.fatal = false →
    (s.schedule = .cycleTick :: rest → step s = .next { s with schedule := rest, cycle := BitVec.ofNat 64 (s.cycle.toNat + 1) }) ∧
      (s.schedule = .retireTick :: rest →
        step s = .next { s with schedule := rest, instret := BitVec.ofNat 64 (s.instret.toNat + 1) }) ∧
      (s.schedule = .predict pc :: rest → step s = .next { s with schedule := rest, predictOut := s.predict pc }) ∧
      (s.schedule = .stallSet :: rest → step s = .next { s with schedule := rest, fetchStall := true }) ∧
      (s.schedule = .stallRelease :: rest → step s = .next { s with schedule := rest, fetchStall := false })

/-- Predict under GSHARE: the counter, the tag match and the fallthrough (stated: R126). -/
def Obligations.PredictGshare : Prop :=
  ∀ (s : State) (pc : Word), s.cfg.wf = true → s.cfg.predictor = .gshare →
    let counter := Sparse.get s.cfg.bhtInit ((pc.toNat / 4 ^^^ s.bhr.toNat) % 2 ^ s.cfg.histBits) s.bht
    let entry := Sparse.get BtbEntry.empty (pc.toNat / 4 % 2 ^ s.cfg.btbIndexBits) s.btb
    s.predict pc =
      if 2 ≤ counter.toNat ∧ entry.valid = true ∧ entry.tag.toNat = pc.toNat / 2 ^ (s.cfg.btbIndexBits + 2) then entry.target
      else pc + 4#32

/-- Under FALLTHROUGH, Predict answers pc + 4 and Update changes nothing (stated: R132). -/
def Obligations.FallthroughPredictor : Prop :=
  ∀ (s : State) (pc n : Word) (u taken : Bool), s.cfg.predictor = .fallthrough →
    s.predict pc = BitVec.ofNat 32 (pc.toNat + 4) ∧ s.update u pc n taken = s

/-- Update under GSHARE: one counter steps, one BTB entry is installed on a taken outcome, the history shifts (stated: R127,
R128, R129). -/
def Obligations.UpdateEffects : Prop :=
  ∀ (s : State) (pc n : Word) (taken : Bool), s.cfg.wf = true → s.cfg.predictor = .gshare →
    let u := s.update true pc n taken
    let j := (pc.toNat / 4 ^^^ s.bhr.toNat) % 2 ^ s.cfg.histBits
    let i :=
      match s.cfg.btbInstall with
      | .xorHistory => (pc.toNat / 4 ^^^ s.bhr.toNat) % 2 ^ s.cfg.btbIndexBits
      | .pcOnly => pc.toNat / 4 % 2 ^ s.cfg.btbIndexBits
    let old := Sparse.get s.cfg.bhtInit j s.bht
    (Sparse.get s.cfg.bhtInit j u.bht).toNat = (if taken then min 3 (old.toNat + 1) else old.toNat - 1) ∧
      (∀ k, k ≠ j → Sparse.get s.cfg.bhtInit k u.bht = Sparse.get s.cfg.bhtInit k s.bht) ∧
      (taken = true → Sparse.get BtbEntry.empty i u.btb =
        { valid := true, tag := BitVec.ofNat 32 (pc.toNat / 2 ^ (s.cfg.btbIndexBits + 2)), target := n }) ∧
      (∀ k, taken = false ∨ k ≠ i → Sparse.get BtbEntry.empty k u.btb = Sparse.get BtbEntry.empty k s.btb) ∧
      u.bhr.toNat = (2 * s.bhr.toNat + taken.toNat) % 2 ^ s.cfg.histBits ∧
      u = { s with bht := u.bht, btb := u.btb, bhr := u.bhr }

/-- H taken outcomes fill the history, H not-taken outcomes clear it (stated: R130). -/
def Obligations.HistoryAfterRuns : Prop :=
  ∀ (s : State) (taken : Bool) (calls : List (Word × Word)), s.cfg.wf = true → s.cfg.predictor = .gshare →
    (∀ pc n, (s.update true pc n taken).bhr.toNat = (2 * s.bhr.toNat + taken.toNat) % 2 ^ s.cfg.histBits) ∧
      (calls.length = s.cfg.histBits →
        (calls.foldl (fun u c => u.update true c.1 c.2 taken) s).bhr.toNat = if taken then 2 ^ s.cfg.histBits - 1 else 0)

/-- The BTB index and tag of a pc determine its bits 31:2 and depend on nothing else (stated: R125). -/
def Obligations.IndexTagDeterminePc : Prop :=
  ∀ (c : Config) (pc pc' : Word), c.wf = true →
    (btbIndex c pc).toNat = pc.toNat / 4 % 2 ^ c.btbIndexBits ∧ (btbTag c pc).toNat = pc.toNat / 2 ^ (c.btbIndexBits + 2) ∧
      (btbTag c pc).toNat < 2 ^ (30 - c.btbIndexBits) ∧
      (btbIndex c pc = btbIndex c pc' ∧ btbTag c pc = btbTag c pc' ↔ pc.toNat / 4 = pc'.toNat / 4)

/-- Under XOR_HISTORY a lookup of the same pc finds the installed entry only under a zero masked history (derived:
44_predictor.md R129, 44_predictor.md R131). -/
def Obligations.InstalledEntryLookup : Prop :=
  ∀ (s : State) (pc n : Word), s.cfg.wf = true → s.cfg.predictor = .gshare → s.cfg.btbInstall = .xorHistory →
    let u := s.update true pc n true
    (s.bhr.toNat % 2 ^ s.cfg.btbIndexBits = 0 →
      u.readBtb (btbIndex s.cfg pc) = { valid := true, tag := btbTag s.cfg pc, target := n }) ∧
      (s.bhr.toNat % 2 ^ s.cfg.btbIndexBits ≠ 0 → u.readBtb (btbIndex s.cfg pc) = s.readBtb (btbIndex s.cfg pc))

/-- Which bundles raise which Fatal, in the order of R139, and that every other bundle completes (derived: 60_exceptions.md
R136, 60_exceptions.md R139). -/
def Obligations.FatalPriority : Prop :=
  ∀ (b : Bundle) (s : State), s.fatal = false →
    match fatalCauseOf b s with
    | some c => exec b.classify s = .fault (.fatal c)
    | none => ∃ t, exec b.classify s = .next t

/-- A Fatal sets fatal and its 4-bit cause and commits nothing else (derived: 10_state.md R25, 60_exceptions.md R136,
60_exceptions.md R138). The model's own choice in it: log 4. -/
def Obligations.FatalLatchesItsCauseOnly : Prop :=
  (∀ (i : Instr) (s : State) (c : FatalCause), exec i s = .fault (.fatal c) →
      s.after (exec i s) = { s with fatal := true, fatalCause := c.code }) ∧
    [FatalCause.illegalBundle, .badAluOp, .badBranchOp, .badMemWidth, .csrReadUnmapped, .csrWriteReadonly, .csrWriteUnmapped].map
      FatalCause.code = [1#4, 2#4, 3#4, 4#4, 5#4, 6#4, 7#4]

/-- Once fatal is 1 no step and no transaction gives a next state (derived: 10_state.md R25, 60_exceptions.md R137,
30_encoding.md R58). The model's own choice in it: log 5, log 18. -/
def Obligations.NoStepAfterFatal : Prop :=
  ∀ (s : State) (i : Instr), s.fatal = true →
    step s = .fault (.halted s.fatalCause) ∧ (∀ t, exec i s ≠ .next t) ∧
      (isRefusedRow i = false → exec i s = .fault (.halted s.fatalCause)) ∧
      (isRefusedRow i = true → ∃ n, exec i s = .refused (.noBundle n))

/-- DIV, DIVU, REM, REMU, ECALL, EBREAK and FENCE.I are refused by name (derived: 00_scope.md R8, 30_encoding.md R58). The
model's own choice in it: log 18. -/
def Obligations.RefusedRowsStop : Prop :=
  ∀ (rd rs1 rs2 : RegIdx) (imm : BitVec 12) (s : State),
    exec (.div rd rs1 rs2) s = .refused (.noBundle "DIV") ∧ exec (.divu rd rs1 rs2) s = .refused (.noBundle "DIVU") ∧
      exec (.rem rd rs1 rs2) s = .refused (.noBundle "REM") ∧ exec (.remu rd rs1 rs2) s = .refused (.noBundle "REMU") ∧
      exec .ecall s = .refused (.noBundle "ECALL") ∧ exec .ebreak s = .refused (.noBundle "EBREAK") ∧
      exec (.fenceI rd rs1 imm) s = .refused (.noBundle "FENCE.I")

/-- The fourteen register-register RV32 instructions: result, completion and frame (derived: 30_encoding.md R57, 40_alu.md R64,
40_alu.md R66 to R79, 92_eei_decisions.md D24). The model's own choice in it: log 3, log 25. -/
def Obligations.Rv32RegisterOps : Prop :=
  ∀ (rd rs1 rs2 : RegIdx) (s : State), s.fatal = false →
    let x := s.readReg rs1
    let y := s.readReg rs2
    let n := y.toNat % 32
    let gives (v : Word) : Host.Outcome State Fault Refusal := .next ((s.withOperands x y).afterNone rd v v)
    exec (.add rd rs1 rs2) s = gives (x + y) ∧ exec (.sub rd rs1 rs2) s = gives (x - y) ∧
      exec (.sll rd rs1 rs2) s = gives (x <<< n) ∧ exec (.slt rd rs1 rs2) s = gives (if x.toInt < y.toInt then 1#32 else 0#32) ∧
      exec (.sltu rd rs1 rs2) s = gives (if x.toNat < y.toNat then 1#32 else 0#32) ∧
      exec (.xor rd rs1 rs2) s = gives (x ^^^ y) ∧ exec (.srl rd rs1 rs2) s = gives (x >>> n) ∧
      exec (.sra rd rs1 rs2) s = gives (x.sshiftRight n) ∧ exec (.or rd rs1 rs2) s = gives (x ||| y) ∧
      exec (.and rd rs1 rs2) s = gives (x &&& y) ∧ exec (.mul rd rs1 rs2) s = gives (x * y) ∧
      exec (.mulh rd rs1 rs2) s = gives (BitVec.ofInt 32 (x.toInt * y.toInt / (2 : Int) ^ 32)) ∧
      exec (.mulhsu rd rs1 rs2) s = gives (BitVec.ofInt 32 (x.toInt * (y.toNat : Int) / (2 : Int) ^ 32)) ∧
      exec (.mulhu rd rs1 rs2) s = gives (BitVec.ofNat 32 (x.toNat * y.toNat / 2 ^ 32))

/-- The nine register-immediate RV32 instructions, LUI, AUIPC and FENCE: result, completion and frame (derived: 20_memory.md
R40, 30_encoding.md R56, 30_encoding.md R57, 40_alu.md R63, 40_alu.md R66, 40_alu.md R68 to R75). The model's own choice in
it: log 3, log 24, log 25. -/
def Obligations.Rv32ImmediateOps : Prop :=
  ∀ (rd rs1 : RegIdx) (imm : BitVec 12) (sh : BitVec 5) (up : BitVec 20) (fm pred succ : BitVec 4) (s : State), s.fatal = false →
    let x := s.readReg rs1
    let y : Word := imm.signExtend 32
    let gives (v : Word) : Host.Outcome State Fault Refusal := .next ((s.withOperands x 0#32).afterNone rd v v)
    exec (.addi rd rs1 imm) s = gives (x + y) ∧ exec (.slti rd rs1 imm) s = gives (if x.toInt < y.toInt then 1#32 else 0#32) ∧
      exec (.sltiu rd rs1 imm) s = gives (if x.toNat < y.toNat then 1#32 else 0#32) ∧
      exec (.xori rd rs1 imm) s = gives (x ^^^ y) ∧ exec (.ori rd rs1 imm) s = gives (x ||| y) ∧
      exec (.andi rd rs1 imm) s = gives (x &&& y) ∧ exec (.slli rd rs1 sh) s = gives (x <<< sh.toNat) ∧
      exec (.srli rd rs1 sh) s = gives (x >>> sh.toNat) ∧ exec (.srai rd rs1 sh) s = gives (x.sshiftRight sh.toNat) ∧
      exec (.lui rd up) s = .next ((s.withOperands 0#32 0#32).afterNone rd (up ++ 0#12) (up ++ 0#12)) ∧
      exec (.auipc rd up) s =
        .next ((s.withOperands 0#32 0#32).afterNone rd (s.ports.pc + (up ++ 0#12)) (s.ports.pc + (up ++ 0#12))) ∧
      exec (.fence fm pred succ rs1 rd) s = .next ((s.withOperands x 0#32).afterNone 0#5 0#32 0#32)

/-- The RV32 jumps: target, link register, Update and redirect (derived: 30_encoding.md R57, 41_branch.md R92, 41_branch.md
R93). The model's own choice in it: log 3, log 25. -/
def Obligations.Rv32Jumps : Prop :=
  ∀ (rd rs1 : RegIdx) (off : BitVec 21) (imm : BitVec 12) (s : State), s.fatal = false →
    exec (.jal rd off) s = .next ((s.withOperands 0#32 0#32).afterBranch rd (s.ports.pc + 4#32) true false
        (s.ports.pc + off.signExtend 32)) ∧
      exec (.jalr rd rs1 imm) s = .next ((s.withOperands (s.readReg rs1) 0#32).afterBranch rd (s.ports.pc + 4#32) true true
        (BitVec.ofNat 32 (2 * ((s.readReg rs1 + imm.signExtend 32).toNat / 2))))

/-- The six RV32 conditional branches: outcome, Update, redirect, and no register written (derived: 30_encoding.md R57,
41_branch.md R94 to R99). The model's own choice in it: log 3, log 25. -/
def Obligations.Rv32Branches : Prop :=
  ∀ (rs1 rs2 : RegIdx) (off : BitVec 13) (s : State), s.fatal = false →
    let x := s.readReg rs1
    let y := s.readReg rs2
    let target := s.ports.pc + off.signExtend 32
    let gives (taken : Bool) : Host.Outcome State Fault Refusal :=
      .next ((s.withOperands x y).afterBranch 0#5 target taken true target)
    exec (.beq rs1 rs2 off) s = gives (decide (x = y)) ∧ exec (.bne rs1 rs2 off) s = gives (decide (x ≠ y)) ∧
      exec (.blt rs1 rs2 off) s = gives (decide (x.toInt < y.toInt)) ∧
      exec (.bge rs1 rs2 off) s = gives (decide (y.toInt ≤ x.toInt)) ∧
      exec (.bltu rs1 rs2 off) s = gives (decide (x.toNat < y.toNat)) ∧
      exec (.bgeu rs1 rs2 off) s = gives (decide (y.toNat ≤ x.toNat))

/-- The five RV32 loads: address, value, completion and frame (derived: 30_encoding.md R57, 42_loadstore.md R104 to R108). The
model's own choice in it: log 3, log 25. -/
def Obligations.Rv32Loads : Prop :=
  ∀ (rd rs1 : RegIdx) (imm : BitVec 12) (s : State), s.fatal = false →
    let a := s.readReg rs1 + imm.signExtend 32
    let m0 := readByte s.mem a
    let m1 := readByte s.mem (a + 1#32)
    let m2 := readByte s.mem (a + 2#32)
    let m3 := readByte s.mem (a + 3#32)
    let gives (v : Word) : Host.Outcome State Fault Refusal := .next ((s.withOperands (s.readReg rs1) 0#32).afterNone rd a v)
    exec (.lb rd rs1 imm) s = gives (m0.signExtend 32) ∧ exec (.lh rd rs1 imm) s = gives ((m1 ++ m0).signExtend 32) ∧
      exec (.lw rd rs1 imm) s = gives (m3 ++ m2 ++ m1 ++ m0) ∧ exec (.lbu rd rs1 imm) s = gives (m0.setWidth 32) ∧
      exec (.lhu rd rs1 imm) s = gives ((m1 ++ m0).setWidth 32)

/-- The three RV32 stores: address, width, completion and no register written (derived: 30_encoding.md R57, 42_loadstore.md R110
to R112). The model's own choice in it: log 3, log 15, log 19, log 25. -/
def Obligations.Rv32Stores : Prop :=
  ∀ (rs1 rs2 : RegIdx) (imm : BitVec 12) (s : State), s.fatal = false →
    let a := s.readReg rs1 + imm.signExtend 32
    let gives (w : Width) : Host.Outcome State Fault Refusal :=
      .next (((s.withOperands (s.readReg rs1) (s.readReg rs2)).storeTo a w (s.readReg rs2)).afterNone 0#5 a a)
    exec (.sb rs1 rs2 imm) s = gives .byte ∧ exec (.sh rs1 rs2 imm) s = gives .half ∧ exec (.sw rs1 rs2 imm) s = gives .word

/-- With nothing in flight or scheduled, a step fetches the word at fetch_pc and runs the instruction it decodes to (derived:
10_state.md R15, 20_memory.md R42, 30_encoding.md R55, 41_branch.md R86). The model's own choice in it: log 10, log 11, log
12. -/
def Obligations.StepRunsDecodedWord : Prop :=
  ∀ (s : State) (i : Instr), s.fatal = false → s.schedule = [] → s.inflight = [] → s.fetchStall = false →
    s.fetchPc.toNat % 4 = 0 → s.isModified s.fetchPc = false → decode (.word (s.instrWord s.fetchPc)) = .ok i →
    let n := s.nextFetchPc s.fetchPc (.word (s.instrWord s.fetchPc)) .regFile
    step s = exec i { s with
      fetchPc := n
      cycle := s.cycle + BitVec.ofNat 64 (Config.cycleTicks s.tickIndex)
      instret := s.instret + BitVec.ofNat 64 (Config.retireTicks s.tickIndex)
      tickIndex := s.tickIndex + 1
      ports := { s.ports with pc := s.fetchPc, predNextPc := n } }

/-- A step executes the oldest in-flight instruction with its pc, operand values and the address fetched after it (derived:
00_scope.md R11, 00_scope.md R12, 10_state.md R13, 10_state.md R17, 41_branch.md R86). The model's own choice in it: log 10,
log 11, log 23. -/
def Obligations.StepRunsOldestInFlight : Prop :=
  ∀ (s : State) (d : InFlight) (ds : List InFlight) (rest : List Event) (i : Instr), s.fatal = false →
    (s.schedule = .execute :: rest ∨ s.schedule = [] ∧ rest = []) → s.inflight = d :: ds → s.isModified d.pc = false →
    decode d.item = .ok i →
    let next := match ds with | [] => s.fetchPc | e :: _ => e.pc
    let ports : Ports :=
      match d.item, d.source with
      | .word _, _ => { s.ports with pc := d.pc, predNextPc := next }
      | .bundle _, .values v1 v2 => { pc := d.pc, rs1Value := v1, rs2Value := v2, predNextPc := next }
      | .bundle w, .regFile =>
        { pc := d.pc, rs1Value := s.readReg (Bundle.unpack w).rs1, rs2Value := s.readReg (Bundle.unpack w).rs2,
          predNextPc := next }
    step s = exec i { s with
      schedule := rest
      inflight := ds
      cycle := s.cycle + BitVec.ofNat 64 (Config.cycleTicks s.tickIndex)
      instret := s.instret + BitVec.ofNat 64 (Config.retireTicks s.tickIndex)
      tickIndex := s.tickIndex + 1
      ports := ports }

/-- A fetch, or the delivery of a bundle, joins the in-flight instructions and advances fetch_pc; a stall holds it; a misaligned
one is refused (derived: 10_state.md R15, 10_state.md R16, 20_memory.md R33, 41_branch.md R90, 44_predictor.md R126,
30_encoding.md R44, 41_branch.md R92, 70_reset_and_hazards.md R157). The model's own choice in it: log 11, log 12, log 14,
log 16, log 23. -/
def Obligations.FetchEvent : Prop :=
  ∀ (s : State) (rest : List Event), s.fatal = false →
    let delivers (item : Fetched) (src : OperandSource) (n : Word) : Prop :=
      (s.fetchStall = true → step s = .next { s with schedule := rest }) ∧
        (s.fetchStall = false → s.fetchPc.toNat % 4 = 0 →
          step s = .next { s with
            schedule := rest
            inflight := s.inflight ++ [{ pc := s.fetchPc, item := item, source := src }]
            fetchPc := n }) ∧
        (s.fetchStall = false → s.fetchPc.toNat % 4 ≠ 0 → step s = .refused (.misalignedFetch s.fetchPc))
    (s.schedule = .fetch :: rest →
      let w := s.instrWord s.fetchPc
      delivers (.word w) .regFile
        (if s.cfg.jalSteering ∧ w.toNat % 128 = 0x6F then s.fetchPc + (immJOf w).signExtend 32 else s.predict s.fetchPc)) ∧
      ∀ (w : BitVec 64) (src : OperandSource), s.schedule = .fetchBundle w src :: rest →
        let b := Bundle.unpack w
        let v : Word × Word := match src with | .regFile => (s.readReg b.rs1, s.readReg b.rs2) | .values v1 v2 => (v1, v2)
        delivers (.bundle w) src
          (if s.cfg.jalSteering ∧ b.brOp = 1#4 ∧ b.noClass then
            match compute b { pc := s.fetchPc, rs1Value := v.1, rs2Value := v.2, predNextPc := 0#32 } with
            | .ok target => target
            | .error _ => s.predict s.fetchPc
          else s.predict s.fetchPc)

/-- A step never executes an instruction whose bytes were stored to since the last flush (derived: 20_memory.md R42,
70_reset_and_hazards.md R160). The model's own choice in it: log 11, log 13, log 15. -/
def Obligations.ModifiedInstructionIsRefused : Prop :=
  ∀ (s : State), s.fatal = false →
    (∀ (d : InFlight) (ds : List InFlight) (rest : List Event) (k : Nat), (s.schedule = .execute :: rest ∨ s.schedule = []) →
      s.inflight = d :: ds → k < 4 → Sparse.get false (d.pc + BitVec.ofNat 32 k).toNat s.modified = true →
      step s = .refused (.modifiedInstruction d.pc)) ∧
      (∀ k, s.schedule = [] → s.inflight = [] → s.fetchStall = false → s.fetchPc.toNat % 4 = 0 → k < 4 →
        Sparse.get false (s.fetchPc + BitVec.ofNat 32 k).toNat s.modified = true →
        step s = .refused (.modifiedInstruction s.fetchPc)) ∧
      ∀ (i : Instr) (t : State) (x : Word), exec i s = .next t → t.out.redirect = false →
        (Sparse.get false x.toNat s.modified = true → Sparse.get false x.toNat t.modified = true) ∧
          ∀ (a : Word) (w : Width), storeTargetOf i s = some (a, w) → s.cfg.instrSpace = .unified →
            Config.inConsole s.cfg a = false → inAccess a w x = true → Sparse.get false x.toNat t.modified = true

/-- Reset puts every piece of the block's state into its reset value (stated: R149). -/
def Obligations.ResetValues : Prop :=
  ∀ (c : Config) (k : Nat),
    let s := State.resetWith c
    s.fetchPc = c.resetPc ∧ s.fetchStall = false ∧ s.cycle = 0#64 ∧ s.instret = 0#64 ∧
      Sparse.get BtbEntry.empty k s.btb = { valid := false, tag := 0#32, target := 0#32 } ∧
      Sparse.get c.bhtInit k s.bht = c.bhtInit ∧ s.bhr = 0#32 ∧ s.fatal = false ∧ s.fatalCause = 0#4 ∧ s.inflight = [] ∧
      s.cfg = c

/-- The machine's invariant holds after reset, in every legal configuration (derived: 10_state.md section 1,
70_reset_and_hazards.md R149). The model's own choice in it: log 1, log 22. -/
def Obligations.ResetMeetsInvariant : Prop :=
  State.reset.ok = true ∧ ∀ c : Config, c.wf = true → (State.resetWith c).ok = true

/-- Every step keeps the machine's invariant (derived: 00_scope.md R9, 10_state.md R21, 10_state.md R22, 10_state.md R23,
10_state.md R25, 20_memory.md R28). The model's own choice in it: log 15, log 22. -/
def Obligations.StepKeepsInvariant : Prop :=
  ∀ s t : State, s.ok = true → step s = .next t → t.ok = true

/-- No step changes the configuration, sets or clears fatal, or writes the separate instruction memory (derived: 10_state.md
R25, 70_reset_and_hazards.md R150, 70_reset_and_hazards.md R152). The model's own choice in it: log 11, log 13. -/
def Obligations.StepKeepsConfigAndFatal : Prop :=
  ∀ s t : State, step s = .next t →
    t.cfg = s.cfg ∧ s.fatal = false ∧ t.fatal = false ∧ t.fatalCause = s.fatalCause ∧ t.imem = s.imem ∧
      t.schedule = s.schedule.tail

/-- Under PREDICTION_COMPARE the instruction executed next is always the one at the actual next pc (derived: 41_branch.md R86,
70_reset_and_hazards.md R155, 70_reset_and_hazards.md R156). The model's own choice in it: log 11, log 19, log 25. -/
def Obligations.SequentialUnderPredictionCompare : Prop :=
  ∀ s t : State, s.cfg.redirectPolicy = .predictionCompare →
    (s.schedule = [] ∧ (s.fetchStall = false ∨ s.inflight ≠ []) ∨ (∃ rest, s.schedule = .execute :: rest) ∧ s.inflight ≠ []) →
    step s = .next t →
    t.nextFetched = t.out.redirectPc ∧ (t.out.taken = false → t.out.redirectPc = s.nextFetched + 4#32)

/-- With the fallthrough predictor and JAL steering, the in-flight words stay a chain of successors (derived: 10_state.md R15,
10_state.md R17, 41_branch.md R87, 44_predictor.md R132). The model's own choice in it: log 11, log 12. -/
def Obligations.FetchChainIsKept : Prop :=
  ∀ s t : State, s.cfg.predictor = .fallthrough → s.cfg.jalSteering = true → s.fetchChain = true →
    noBundleFetch s.schedule = true → step s = .next t →
    t.fetchChain = true ∧ noBundleFetch t.schedule = true

/-- With the fallthrough predictor the words execute in program order, at any fetch depth (derived: 41_branch.md R90,
70_reset_and_hazards.md R156, 70_reset_and_hazards.md R157). The model's own choice in it: log 11, log 12, log 25. -/
def Obligations.SequentialWordsUnderFallthrough : Prop :=
  ∀ s t : State, s.cfg.predictor = .fallthrough → s.cfg.redirectPolicy = .fallthroughCompare → s.cfg.jalSteering = true →
    s.fetchChain = true →
    (s.schedule = [] ∧ (s.fetchStall = false ∨ s.inflight ≠ []) ∨ (∃ rest, s.schedule = .execute :: rest) ∧ s.inflight ≠ []) →
    step s = .next t →
    t.nextFetched = if t.out.taken then t.out.redirectPc else s.nextFetched + 4#32

/-- The li pseudo-instruction loads every 32-bit constant (derived: 30_encoding.md R59, 30_encoding.md R57). The model's own
choice in it: log 3. -/
def Obligations.LiLoadsItsConstant : Prop :=
  ∀ (c : Config) (rd : RegIdx) (v : Word) (s : State) (is : List Instr), s.fatal = false → rd ≠ 0#5 →
    (Pseudo.li rd v).expand c = some is →
    (is.length = if -2048 ≤ v.toInt ∧ v.toInt ≤ 2047 then 1 else 2) ∧ ∃ t, execAll is s = .next t ∧ t.readReg rd = v
end

