-- ==== Sys2Proof/Laws/Arith.lean ====
section
/-! SUPPORT. The ALU's bit forms as arithmetic: shifts as products and quotients, high halves of products, branch targets. -/

namespace Sys2Proof.Machine

/-- Bits 63:32 of an exact integer held in 64 bits are its quotient by 2^32, rounded down, modulo 2^32. -/
theorem high_ofInt (x : Int) : (BitVec.ofInt 64 x).extractLsb' 32 32 = BitVec.ofInt 32 (x / (2 : Int) ^ 32) := by
  apply BitVec.eq_of_toNat_eq
  simp only [BitVec.extractLsb'_toNat, BitVec.toNat_ofInt, Nat.shiftRight_eq_div_pow]
  omega

theorem high_ofNat (x : Nat) (h : x < 2 ^ 64) : (BitVec.ofNat 64 x).extractLsb' 32 32 = BitVec.ofNat 32 (x / 2 ^ 32) := by
  apply BitVec.eq_of_toNat_eq
  simp only [BitVec.extractLsb'_toNat, BitVec.toNat_ofNat, Nat.shiftRight_eq_div_pow]
  omega

/-- The low 32 bits of the signed product are the product of the words. -/
theorem ofInt_mul_toInt (x y : Word) : BitVec.ofInt 32 (x.toInt * y.toInt) = x * y := by
  rw [BitVec.ofInt_mul, BitVec.ofInt_toInt, BitVec.ofInt_toInt]

theorem ofNat_mul_toNat (x y : Word) : BitVec.ofNat 32 (x.toNat * y.toNat) = x * y := by
  apply BitVec.eq_of_toNat_eq; simp [BitVec.toNat_mul]

theorem ofNat_add_toNat (x y : Word) : BitVec.ofNat 32 (x.toNat + y.toNat) = x + y := by
  apply BitVec.eq_of_toNat_eq; simp [BitVec.toNat_add]

theorem ofInt_sub_toInt (x y : Word) : BitVec.ofInt 32 (x.toInt - y.toInt) = x - y := by
  apply BitVec.eq_of_toInt_eq; simp [BitVec.toInt_sub]

theorem shl_eq (x : Word) (n : Nat) : x <<< n = BitVec.ofNat 32 (x.toNat * 2 ^ n) := by
  apply BitVec.eq_of_toNat_eq; simp [BitVec.toNat_shiftLeft, Nat.shiftLeft_eq]

theorem shr_eq (x : Word) (n : Nat) : x >>> n = BitVec.ofNat 32 (x.toNat / 2 ^ n) := by
  apply BitVec.eq_of_toNat_eq
  rw [BitVec.toNat_ushiftRight, Nat.shiftRight_eq_div_pow, BitVec.toNat_ofNat,
    Nat.mod_eq_of_lt (Nat.lt_of_le_of_lt (Nat.div_le_self _ _) x.isLt)]

theorem sra_eq (x : Word) (n : Nat) : x.sshiftRight n = BitVec.ofInt 32 (x.toInt / (2 : Int) ^ n) := by
  simp [BitVec.sshiftRight, Int.shiftRight_eq_div_pow]

/-- The unsigned product fits 64 bits. -/
theorem mul_lt (x y : Word) : x.toNat * y.toNat < 2 ^ 64 := by
  have hx := x.isLt; have hy := y.isLt
  calc x.toNat * y.toNat ≤ (2 ^ 32 - 1) * (2 ^ 32 - 1) := Nat.mul_le_mul (by omega) (by omega)
    _ < 2 ^ 64 := by norm_num

/-- Clearing bit 0 (R83). -/
theorem clearBit0 (v : Word) : v &&& 0xFFFFFFFE#32 = BitVec.ofNat 32 (2 * (v.toNat / 2)) := by
  apply BitVec.eq_of_getLsbD_eq
  intro i hi
  have : (BitVec.ofNat 32 (2 * (v.toNat / 2))) = (v >>> 1) <<< 1 := by
    apply BitVec.eq_of_toNat_eq
    simp only [BitVec.toNat_shiftLeft, BitVec.toNat_ushiftRight, BitVec.toNat_ofNat, Nat.shiftLeft_eq, Nat.shiftRight_eq_div_pow]
    omega
  rw [this]
  simp only [BitVec.getLsbD_and, BitVec.getLsbD_shiftLeft, BitVec.getLsbD_ushiftRight, hi, decide_true, Bool.true_and]
  have hm : ∀ i : Fin 32, (0xFFFFFFFE#32).getLsbD i = !decide (i.val < 1) := by decide
  have := hm ⟨i, hi⟩
  simp only at this
  rw [this]
  by_cases h0 : i < 1
  · simp [h0]
  · simp [h0, show 1 + (i - 1) = i by omega]

theorem boolWord_ltSigned (x y : Word) : boolWord (ltSigned x y) = if x.toInt < y.toInt then 1#32 else 0#32 := by
  by_cases h : x.toInt < y.toInt <;> simp [boolWord, ltSigned, h]

theorem boolWord_ltUnsigned (x y : Word) : boolWord (ltUnsigned x y) = if x.toNat < y.toNat then 1#32 else 0#32 := by
  by_cases h : x.toNat < y.toNat <;> simp [boolWord, ltUnsigned, h]

theorem not_ltSigned (x y : Word) : (!ltSigned x y) = decide (y.toInt ≤ x.toInt) := by
  by_cases h : x.toInt < y.toInt
  · simp [ltSigned, h]
  · simp [ltSigned, h, Int.not_lt.mp h]

theorem not_ltUnsigned (x y : Word) : (!ltUnsigned x y) = decide (y.toNat ≤ x.toNat) := by
  by_cases h : x.toNat < y.toNat
  · simp [ltUnsigned, h]
  · simp [ltUnsigned, h, Nat.not_lt.mp h]

theorem word_beq (x y : Word) : (x == y) = decide (x = y) := rfl

theorem word_bne (x y : Word) : (x != y) = decide (x ≠ y) := by by_cases h : x = y <;> simp [h]

/-- The U immediate is the 20 bits over twelve zero bits (R56). -/
theorem immU_eq (up : BitVec 20) : immU up = up ++ 0#12 := by
  have h := up.isLt
  apply BitVec.eq_of_toNat_eq
  show _ = (up ++ 0#12 : BitVec (20 + 12)).toNat
  rw [BitVec.toNat_append]
  simp only [immU, BitVec.toNat_ofNat, Nat.shiftLeft_eq, Nat.zero_mod, Nat.or_zero]
  omega

theorem shamtOf_shift (sh : BitVec 5) : shamtOf (BitVec.ofNat 32 sh.toNat) = sh.toNat := by
  have := sh.isLt
  simp only [shamtOf, BitVec.toNat_ofNat]; omega

/-- SRAI's immediate is 0x400 plus the amount, of which only the low five bits count (R57). -/
theorem shamtOf_srai (sh : BitVec 5) : shamtOf (BitVec.ofNat 32 (0x400 + sh.toNat)) = sh.toNat := by
  have := sh.isLt
  simp only [shamtOf, BitVec.toNat_ofNat]; omega

end Sys2Proof.Machine
end

