-- ==== Sys2Proof/Laws/Decode.lean ====
section
/-! SUPPORT. The fields of packed bundles and of RV32 formats read back as they were put. -/

namespace Sys2Proof

/-- Unpacking a packed bundle gives it back. -/
@[simp] theorem Bundle.unpack_pack (b : Bundle) : Bundle.unpack b.pack = b := by
  obtain ⟨a, br, f3, f1, f2, f3', f4, f5, f6, rd, rs1, rs2, imm⟩ := b
  have := a.isLt; have := br.isLt; have := f3.isLt; have := rd.isLt; have := rs1.isLt; have := rs2.isLt; have := imm.isLt
  have := f1.toNat_le; have := f2.toNat_le; have := f3'.toNat_le; have := f4.toNat_le; have := f5.toNat_le; have := f6.toNat_le
  have hb : ∀ (b : Bool) (v : BitVec 1), v.toNat = b.toNat → (v == 1#1) = b := by decide
  simp only [Bundle.unpack, Bundle.pack, Bundle.mk.injEq]
  refine ⟨?_, ?_, ?_, ?_, ?_, ?_, ?_, ?_, ?_, ?_, ?_, ?_, ?_⟩ <;> first | (apply BitVec.eq_of_toNat_eq) | (apply hb)
  all_goals
    simp only [BitVec.extractLsb'_toNat, BitVec.toNat_ofNat, Nat.shiftRight_eq_div_pow]
    omega

/-- Packing the fields of a word gives it back: the bundle's fields are all of its bits. -/
@[simp] theorem Bundle.pack_unpack (w : BitVec 64) : (Bundle.unpack w).pack = w := by
  have hb : ∀ (v : BitVec 1), (v == 1#1).toNat = v.toNat := by decide
  apply BitVec.eq_of_toNat_eq
  have := w.isLt
  simp only [Bundle.unpack, Bundle.pack, hb]
  simp only [BitVec.extractLsb'_toNat, BitVec.toNat_ofNat, Nat.shiftRight_eq_div_pow]
  omega

section
variable (f7 : BitVec 7) (rs2 rs1 : RegIdx) (f3 : BitVec 3) (rd : RegIdx) (op : BitVec 7) (i12 : BitVec 12) (i13 : BitVec 13)
  (i20 : BitVec 20) (i21 : BitVec 21)

@[simp] theorem opcodeOf_encR : opcodeOf (encR f7 rs2 rs1 f3 rd op) = op := by
  have := op.isLt; have := rd.isLt; have := f3.isLt; have := rs1.isLt; have := rs2.isLt; have := f7.isLt
  apply BitVec.eq_of_toNat_eq
  simp only [opcodeOf, encR, BitVec.extractLsb'_toNat, BitVec.toNat_ofNat, Nat.shiftRight_eq_div_pow]; omega
@[simp] theorem rdOf_encR : rdOf (encR f7 rs2 rs1 f3 rd op) = rd := by
  have := op.isLt; have := rd.isLt; have := f3.isLt; have := rs1.isLt; have := rs2.isLt; have := f7.isLt
  apply BitVec.eq_of_toNat_eq
  simp only [rdOf, encR, BitVec.extractLsb'_toNat, BitVec.toNat_ofNat, Nat.shiftRight_eq_div_pow]; omega
@[simp] theorem funct3Of_encR : funct3Of (encR f7 rs2 rs1 f3 rd op) = f3 := by
  have := op.isLt; have := rd.isLt; have := f3.isLt; have := rs1.isLt; have := rs2.isLt; have := f7.isLt
  apply BitVec.eq_of_toNat_eq
  simp only [funct3Of, encR, BitVec.extractLsb'_toNat, BitVec.toNat_ofNat, Nat.shiftRight_eq_div_pow]; omega
@[simp] theorem rs1Of_encR : rs1Of (encR f7 rs2 rs1 f3 rd op) = rs1 := by
  have := op.isLt; have := rd.isLt; have := f3.isLt; have := rs1.isLt; have := rs2.isLt; have := f7.isLt
  apply BitVec.eq_of_toNat_eq
  simp only [rs1Of, encR, BitVec.extractLsb'_toNat, BitVec.toNat_ofNat, Nat.shiftRight_eq_div_pow]; omega
@[simp] theorem rs2Of_encR : rs2Of (encR f7 rs2 rs1 f3 rd op) = rs2 := by
  have := op.isLt; have := rd.isLt; have := f3.isLt; have := rs1.isLt; have := rs2.isLt; have := f7.isLt
  apply BitVec.eq_of_toNat_eq
  simp only [rs2Of, encR, BitVec.extractLsb'_toNat, BitVec.toNat_ofNat, Nat.shiftRight_eq_div_pow]; omega
@[simp] theorem funct7Of_encR : funct7Of (encR f7 rs2 rs1 f3 rd op) = f7 := by
  have := op.isLt; have := rd.isLt; have := f3.isLt; have := rs1.isLt; have := rs2.isLt; have := f7.isLt
  apply BitVec.eq_of_toNat_eq
  simp only [funct7Of, encR, BitVec.extractLsb'_toNat, BitVec.toNat_ofNat, Nat.shiftRight_eq_div_pow]; omega
/-- The two low bits of a word are its opcode's. -/
theorem lowBits_eq (w : BitVec 32) : w.extractLsb' 0 2 = (opcodeOf w).extractLsb' 0 2 := by
  apply BitVec.eq_of_toNat_eq
  simp only [opcodeOf, BitVec.extractLsb'_toNat, Nat.shiftRight_eq_div_pow]; omega

@[simp] theorem opcodeOf_encI : opcodeOf (encI i12 rs1 f3 rd op) = op := by
  have := op.isLt; have := rd.isLt; have := f3.isLt; have := rs1.isLt; have := i12.isLt
  apply BitVec.eq_of_toNat_eq
  simp only [opcodeOf, encI, BitVec.extractLsb'_toNat, BitVec.toNat_ofNat, Nat.shiftRight_eq_div_pow]; omega
@[simp] theorem rdOf_encI : rdOf (encI i12 rs1 f3 rd op) = rd := by
  have := op.isLt; have := rd.isLt; have := f3.isLt; have := rs1.isLt; have := i12.isLt
  apply BitVec.eq_of_toNat_eq
  simp only [rdOf, encI, BitVec.extractLsb'_toNat, BitVec.toNat_ofNat, Nat.shiftRight_eq_div_pow]; omega
@[simp] theorem funct3Of_encI : funct3Of (encI i12 rs1 f3 rd op) = f3 := by
  have := op.isLt; have := rd.isLt; have := f3.isLt; have := rs1.isLt; have := i12.isLt
  apply BitVec.eq_of_toNat_eq
  simp only [funct3Of, encI, BitVec.extractLsb'_toNat, BitVec.toNat_ofNat, Nat.shiftRight_eq_div_pow]; omega
@[simp] theorem rs1Of_encI : rs1Of (encI i12 rs1 f3 rd op) = rs1 := by
  have := op.isLt; have := rd.isLt; have := f3.isLt; have := rs1.isLt; have := i12.isLt
  apply BitVec.eq_of_toNat_eq
  simp only [rs1Of, encI, BitVec.extractLsb'_toNat, BitVec.toNat_ofNat, Nat.shiftRight_eq_div_pow]; omega
@[simp] theorem immIOf_encI : immIOf (encI i12 rs1 f3 rd op) = i12 := by
  have := op.isLt; have := rd.isLt; have := f3.isLt; have := rs1.isLt; have := i12.isLt
  apply BitVec.eq_of_toNat_eq
  simp only [immIOf, encI, BitVec.extractLsb'_toNat, BitVec.toNat_ofNat, Nat.shiftRight_eq_div_pow]; omega

@[simp] theorem opcodeOf_encS : opcodeOf (encS i12 rs2 rs1 f3 op) = op := by simp [encS]
@[simp] theorem funct3Of_encS : funct3Of (encS i12 rs2 rs1 f3 op) = f3 := by simp [encS]
@[simp] theorem rs1Of_encS : rs1Of (encS i12 rs2 rs1 f3 op) = rs1 := by simp [encS]
@[simp] theorem rs2Of_encS : rs2Of (encS i12 rs2 rs1 f3 op) = rs2 := by simp [encS]
@[simp] theorem immSOf_encS : immSOf (encS i12 rs2 rs1 f3 op) = i12 := by
  have := i12.isLt
  apply BitVec.eq_of_toNat_eq
  simp only [immSOf, encS, rdOf_encR, funct7Of_encR, BitVec.extractLsb'_toNat, BitVec.toNat_ofNat, Nat.shiftRight_eq_div_pow]; omega

@[simp] theorem opcodeOf_encB : opcodeOf (encB i13 rs2 rs1 f3 op) = op := by simp [encB]
@[simp] theorem funct3Of_encB : funct3Of (encB i13 rs2 rs1 f3 op) = f3 := by simp [encB]
@[simp] theorem rs1Of_encB : rs1Of (encB i13 rs2 rs1 f3 op) = rs1 := by simp [encB]
@[simp] theorem rs2Of_encB : rs2Of (encB i13 rs2 rs1 f3 op) = rs2 := by simp [encB]
/-- The B immediate's slices of a format-R word lie in its rd and funct7. -/
theorem immBOf_encR : immBOf (encR f7 rs2 rs1 f3 rd op) = BitVec.ofNat 13 (2 * (rd.toNat / 2) + 2 ^ 5 * (f7.toNat % 2 ^ 6)
    + 2 ^ 11 * (rd.toNat % 2) + 2 ^ 12 * (f7.toNat / 2 ^ 6)) := by
  have := op.isLt; have := rd.isLt; have := f3.isLt; have := rs1.isLt; have := rs2.isLt; have := f7.isLt
  have h1 : ((encR f7 rs2 rs1 f3 rd op).extractLsb' 8 4).toNat = rd.toNat / 2 := by
    simp only [encR, BitVec.extractLsb'_toNat, BitVec.toNat_ofNat, Nat.shiftRight_eq_div_pow]; omega
  have h2 : ((encR f7 rs2 rs1 f3 rd op).extractLsb' 25 6).toNat = f7.toNat % 2 ^ 6 := by
    simp only [encR, BitVec.extractLsb'_toNat, BitVec.toNat_ofNat, Nat.shiftRight_eq_div_pow]; omega
  have h3 : ((encR f7 rs2 rs1 f3 rd op).extractLsb' 7 1).toNat = rd.toNat % 2 := by
    simp only [encR, BitVec.extractLsb'_toNat, BitVec.toNat_ofNat, Nat.shiftRight_eq_div_pow]; omega
  have h4 : ((encR f7 rs2 rs1 f3 rd op).extractLsb' 31 1).toNat = f7.toNat / 2 ^ 6 := by
    simp only [encR, BitVec.extractLsb'_toNat, BitVec.toNat_ofNat, Nat.shiftRight_eq_div_pow]; omega
  simp only [immBOf, h1, h2, h3, h4]

/-- A B immediate is read back where its bit 0 is 0. -/
theorem immBOf_encB (h : i13.getLsbD 0 = false) : immBOf (encB i13 rs2 rs1 f3 op) = i13 := by
  have hlt := i13.isLt
  have h0 : i13.toNat % 2 = 0 := by
    simp only [BitVec.getLsbD, Nat.testBit, Nat.shiftRight_zero, Nat.one_and_eq_mod_two, bne_eq_false_iff_eq] at h; exact h
  have key : ∀ a b c d : Nat, a < 2 → b < 16 → c < 64 → d < 2 →
      (a + 2 * b) % 2 ^ 5 / 2 = b ∧ (c + 2 ^ 6 * d) % 2 ^ 7 % 2 ^ 6 = c ∧ (a + 2 * b) % 2 ^ 5 % 2 = a ∧
      (c + 2 ^ 6 * d) % 2 ^ 7 / 2 ^ 6 = d := by omega
  have join : ∀ n : Nat, n < 2 ^ 13 → n % 2 = 0 → (2 * (n / 2 ^ 1 % 2 ^ 4) + 2 ^ 5 * (n / 2 ^ 5 % 2 ^ 6)
      + 2 ^ 11 * (n / 2 ^ 11 % 2 ^ 1) + 2 ^ 12 * (n / 2 ^ 12 % 2 ^ 1)) % 2 ^ 13 = n := by omega
  rw [encB, immBOf_encR]
  apply BitVec.eq_of_toNat_eq
  simp only [BitVec.extractLsb'_toNat, BitVec.toNat_ofNat, Nat.shiftRight_eq_div_pow]
  obtain ⟨k1, k2, k3, k4⟩ := key (i13.toNat / 2 ^ 11 % 2 ^ 1) (i13.toNat / 2 ^ 1 % 2 ^ 4) (i13.toNat / 2 ^ 5 % 2 ^ 6)
    (i13.toNat / 2 ^ 12 % 2 ^ 1) (by omega) (by omega) (by omega) (by omega)
  rw [k1, k2, k3, k4, join _ hlt h0]

@[simp] theorem opcodeOf_encU : opcodeOf (encU i20 rd op) = op := by
  have := op.isLt; have := rd.isLt; have := i20.isLt
  apply BitVec.eq_of_toNat_eq
  simp only [opcodeOf, encU, BitVec.extractLsb'_toNat, BitVec.toNat_ofNat, Nat.shiftRight_eq_div_pow]; omega
@[simp] theorem rdOf_encU : rdOf (encU i20 rd op) = rd := by
  have := op.isLt; have := rd.isLt; have := i20.isLt
  apply BitVec.eq_of_toNat_eq
  simp only [rdOf, encU, BitVec.extractLsb'_toNat, BitVec.toNat_ofNat, Nat.shiftRight_eq_div_pow]; omega
@[simp] theorem immUOf_encU : immUOf (encU i20 rd op) = i20 := by
  have := op.isLt; have := rd.isLt; have := i20.isLt
  apply BitVec.eq_of_toNat_eq
  simp only [immUOf, encU, BitVec.extractLsb'_toNat, BitVec.toNat_ofNat, Nat.shiftRight_eq_div_pow]; omega

@[simp] theorem opcodeOf_encJ : opcodeOf (encJ i21 rd op) = op := by simp [encJ]
@[simp] theorem rdOf_encJ : rdOf (encJ i21 rd op) = rd := by simp [encJ]
/-- The J immediate's slices of a format-U word lie in its upper field. -/
theorem immJOf_encU : immJOf (encU i20 rd op) = BitVec.ofNat 21 (2 * (i20.toNat / 2 ^ 9 % 2 ^ 10) + 2 ^ 11 * (i20.toNat / 2 ^ 8 % 2)
    + 2 ^ 12 * (i20.toNat % 2 ^ 8) + 2 ^ 20 * (i20.toNat / 2 ^ 19)) := by
  have := op.isLt; have := rd.isLt; have := i20.isLt
  have h1 : ((encU i20 rd op).extractLsb' 21 10).toNat = i20.toNat / 2 ^ 9 % 2 ^ 10 := by
    simp only [encU, BitVec.extractLsb'_toNat, BitVec.toNat_ofNat, Nat.shiftRight_eq_div_pow]; omega
  have h2 : ((encU i20 rd op).extractLsb' 20 1).toNat = i20.toNat / 2 ^ 8 % 2 := by
    simp only [encU, BitVec.extractLsb'_toNat, BitVec.toNat_ofNat, Nat.shiftRight_eq_div_pow]; omega
  have h3 : ((encU i20 rd op).extractLsb' 12 8).toNat = i20.toNat % 2 ^ 8 := by
    simp only [encU, BitVec.extractLsb'_toNat, BitVec.toNat_ofNat, Nat.shiftRight_eq_div_pow]; omega
  have h4 : ((encU i20 rd op).extractLsb' 31 1).toNat = i20.toNat / 2 ^ 19 := by
    simp only [encU, BitVec.extractLsb'_toNat, BitVec.toNat_ofNat, Nat.shiftRight_eq_div_pow]; omega
  simp only [immJOf, h1, h2, h3, h4]

/-- A J immediate is read back where its bit 0 is 0. -/
theorem immJOf_encJ (h : i21.getLsbD 0 = false) : immJOf (encJ i21 rd op) = i21 := by
  have hlt := i21.isLt
  have h0 : i21.toNat % 2 = 0 := by
    simp only [BitVec.getLsbD, Nat.testBit, Nat.shiftRight_zero, Nat.one_and_eq_mod_two, bne_eq_false_iff_eq] at h; exact h
  have key : ∀ a b c d : Nat, a < 256 → b < 2 → c < 1024 → d < 2 →
      (a + 2 ^ 8 * b + 2 ^ 9 * c + 2 ^ 19 * d) % 2 ^ 20 / 2 ^ 9 % 2 ^ 10 = c ∧
      (a + 2 ^ 8 * b + 2 ^ 9 * c + 2 ^ 19 * d) % 2 ^ 20 / 2 ^ 8 % 2 = b ∧
      (a + 2 ^ 8 * b + 2 ^ 9 * c + 2 ^ 19 * d) % 2 ^ 20 % 2 ^ 8 = a ∧
      (a + 2 ^ 8 * b + 2 ^ 9 * c + 2 ^ 19 * d) % 2 ^ 20 / 2 ^ 19 = d := by omega
  have join : ∀ n : Nat, n < 2 ^ 21 → n % 2 = 0 → (2 * (n / 2 ^ 1 % 2 ^ 10) + 2 ^ 11 * (n / 2 ^ 11 % 2 ^ 1)
      + 2 ^ 12 * (n / 2 ^ 12 % 2 ^ 8) + 2 ^ 20 * (n / 2 ^ 20 % 2 ^ 1)) % 2 ^ 21 = n := by omega
  rw [encJ, immJOf_encU]
  apply BitVec.eq_of_toNat_eq
  simp only [BitVec.extractLsb'_toNat, BitVec.toNat_ofNat, Nat.shiftRight_eq_div_pow]
  obtain ⟨k1, k2, k3, k4⟩ := key (i21.toNat / 2 ^ 12 % 2 ^ 8) (i21.toNat / 2 ^ 11 % 2 ^ 1) (i21.toNat / 2 ^ 1 % 2 ^ 10)
    (i21.toNat / 2 ^ 20 % 2 ^ 1) (by omega) (by omega) (by omega) (by omega)
  rw [k1, k2, k3, k4, join _ hlt h0]
end

/-- The four bytes of a word, lowest first, are the word. -/
@[simp] theorem wordOfBytes_bytes (w : BitVec 32) :
    wordOfBytes (w.extractLsb' 0 8) (w.extractLsb' 8 8) (w.extractLsb' 16 8) (w.extractLsb' 24 8) = w := by
  have := w.isLt
  apply BitVec.eq_of_toNat_eq
  simp only [wordOfBytes, BitVec.extractLsb'_toNat, BitVec.toNat_ofNat, Nat.shiftRight_eq_div_pow]; omega

/-- Decoding a word's four bytes decodes the word. -/
theorem decodeBytes_bytesOfWord (w : BitVec 32) {i : Instr} (h : decodeWord w = .ok i) :
    decodeBytes (bytesOfWord w) = .ok (i, []) := by
  simp only [decodeBytes, bytesOfWord, wordOfBytes_bytes, h]

end Sys2Proof
end

