-- ==== Sys2Proof/Laws/State.lean ====
section
/-! SUPPORT. One lemma per field per update of the state, each true by rfl. -/

namespace Sys2Proof.Machine

variable (s : State)

@[simp] theorem State.latchFatal_cfg (c : FatalCause) : (s.latchFatal c).cfg = s.cfg := rfl
@[simp] theorem State.latchFatal_fetchPc (c : FatalCause) : (s.latchFatal c).fetchPc = s.fetchPc := rfl
@[simp] theorem State.latchFatal_fetchStall (c : FatalCause) : (s.latchFatal c).fetchStall = s.fetchStall := rfl
@[simp] theorem State.latchFatal_cycle (c : FatalCause) : (s.latchFatal c).cycle = s.cycle := rfl
@[simp] theorem State.latchFatal_instret (c : FatalCause) : (s.latchFatal c).instret = s.instret := rfl
@[simp] theorem State.latchFatal_btb (c : FatalCause) : (s.latchFatal c).btb = s.btb := rfl
@[simp] theorem State.latchFatal_bht (c : FatalCause) : (s.latchFatal c).bht = s.bht := rfl
@[simp] theorem State.latchFatal_bhr (c : FatalCause) : (s.latchFatal c).bhr = s.bhr := rfl
@[simp] theorem State.latchFatal_fatal (c : FatalCause) : (s.latchFatal c).fatal = true := rfl
@[simp] theorem State.latchFatal_fatalCause (c : FatalCause) : (s.latchFatal c).fatalCause = c.code := rfl
@[simp] theorem State.latchFatal_inflight (c : FatalCause) : (s.latchFatal c).inflight = s.inflight := rfl
@[simp] theorem State.latchFatal_regs (c : FatalCause) : (s.latchFatal c).regs = s.regs := rfl
@[simp] theorem State.latchFatal_mem (c : FatalCause) : (s.latchFatal c).mem = s.mem := rfl
@[simp] theorem State.latchFatal_imem (c : FatalCause) : (s.latchFatal c).imem = s.imem := rfl
@[simp] theorem State.latchFatal_console (c : FatalCause) : (s.latchFatal c).console = s.console := rfl
@[simp] theorem State.latchFatal_ports (c : FatalCause) : (s.latchFatal c).ports = s.ports := rfl
@[simp] theorem State.latchFatal_out (c : FatalCause) : (s.latchFatal c).out = s.out := rfl
@[simp] theorem State.latchFatal_predictOut (c : FatalCause) : (s.latchFatal c).predictOut = s.predictOut := rfl
@[simp] theorem State.latchFatal_schedule (c : FatalCause) : (s.latchFatal c).schedule = s.schedule := rfl
@[simp] theorem State.latchFatal_tickIndex (c : FatalCause) : (s.latchFatal c).tickIndex = s.tickIndex := rfl
@[simp] theorem State.latchFatal_modified (c : FatalCause) : (s.latchFatal c).modified = s.modified := rfl

@[simp] theorem State.writeReg_cfg (r : RegIdx) (v : Word) : (s.writeReg r v).cfg = s.cfg := rfl
@[simp] theorem State.writeReg_fetchPc (r : RegIdx) (v : Word) : (s.writeReg r v).fetchPc = s.fetchPc := rfl
@[simp] theorem State.writeReg_fetchStall (r : RegIdx) (v : Word) : (s.writeReg r v).fetchStall = s.fetchStall := rfl
@[simp] theorem State.writeReg_cycle (r : RegIdx) (v : Word) : (s.writeReg r v).cycle = s.cycle := rfl
@[simp] theorem State.writeReg_instret (r : RegIdx) (v : Word) : (s.writeReg r v).instret = s.instret := rfl
@[simp] theorem State.writeReg_btb (r : RegIdx) (v : Word) : (s.writeReg r v).btb = s.btb := rfl
@[simp] theorem State.writeReg_bht (r : RegIdx) (v : Word) : (s.writeReg r v).bht = s.bht := rfl
@[simp] theorem State.writeReg_bhr (r : RegIdx) (v : Word) : (s.writeReg r v).bhr = s.bhr := rfl
@[simp] theorem State.writeReg_fatal (r : RegIdx) (v : Word) : (s.writeReg r v).fatal = s.fatal := rfl
@[simp] theorem State.writeReg_fatalCause (r : RegIdx) (v : Word) : (s.writeReg r v).fatalCause = s.fatalCause := rfl
@[simp] theorem State.writeReg_inflight (r : RegIdx) (v : Word) : (s.writeReg r v).inflight = s.inflight := rfl
@[simp] theorem State.writeReg_regs (r : RegIdx) (v : Word) : (s.writeReg r v).regs = 
    if r = 0#5 then s.regs else s.regs.set r.toNat v r.isLt := rfl
@[simp] theorem State.writeReg_mem (r : RegIdx) (v : Word) : (s.writeReg r v).mem = s.mem := rfl
@[simp] theorem State.writeReg_imem (r : RegIdx) (v : Word) : (s.writeReg r v).imem = s.imem := rfl
@[simp] theorem State.writeReg_console (r : RegIdx) (v : Word) : (s.writeReg r v).console = s.console := rfl
@[simp] theorem State.writeReg_ports (r : RegIdx) (v : Word) : (s.writeReg r v).ports = s.ports := rfl
@[simp] theorem State.writeReg_out (r : RegIdx) (v : Word) : (s.writeReg r v).out = s.out := rfl
@[simp] theorem State.writeReg_predictOut (r : RegIdx) (v : Word) : (s.writeReg r v).predictOut = s.predictOut := rfl
@[simp] theorem State.writeReg_schedule (r : RegIdx) (v : Word) : (s.writeReg r v).schedule = s.schedule := rfl
@[simp] theorem State.writeReg_tickIndex (r : RegIdx) (v : Word) : (s.writeReg r v).tickIndex = s.tickIndex := rfl
@[simp] theorem State.writeReg_modified (r : RegIdx) (v : Word) : (s.writeReg r v).modified = s.modified := rfl

@[simp] theorem State.storeTo_cfg (a : Word) (w : Width) (v : Word) : (s.storeTo a w v).cfg = s.cfg := rfl
@[simp] theorem State.storeTo_fetchPc (a : Word) (w : Width) (v : Word) : (s.storeTo a w v).fetchPc = s.fetchPc := rfl
@[simp] theorem State.storeTo_fetchStall (a : Word) (w : Width) (v : Word) : (s.storeTo a w v).fetchStall = 
    s.fetchStall := rfl
@[simp] theorem State.storeTo_cycle (a : Word) (w : Width) (v : Word) : (s.storeTo a w v).cycle = s.cycle := rfl
@[simp] theorem State.storeTo_instret (a : Word) (w : Width) (v : Word) : (s.storeTo a w v).instret = s.instret := rfl
@[simp] theorem State.storeTo_btb (a : Word) (w : Width) (v : Word) : (s.storeTo a w v).btb = s.btb := rfl
@[simp] theorem State.storeTo_bht (a : Word) (w : Width) (v : Word) : (s.storeTo a w v).bht = s.bht := rfl
@[simp] theorem State.storeTo_bhr (a : Word) (w : Width) (v : Word) : (s.storeTo a w v).bhr = s.bhr := rfl
@[simp] theorem State.storeTo_fatal (a : Word) (w : Width) (v : Word) : (s.storeTo a w v).fatal = s.fatal := rfl
@[simp] theorem State.storeTo_fatalCause (a : Word) (w : Width) (v : Word) : (s.storeTo a w v).fatalCause = 
    s.fatalCause := rfl
@[simp] theorem State.storeTo_inflight (a : Word) (w : Width) (v : Word) : (s.storeTo a w v).inflight = s.inflight := rfl
@[simp] theorem State.storeTo_regs (a : Word) (w : Width) (v : Word) : (s.storeTo a w v).regs = s.regs := rfl
@[simp] theorem State.storeTo_mem (a : Word) (w : Width) (v : Word) : (s.storeTo a w v).mem = 
    if Config.inConsole s.cfg a then s.mem else memWrite s.mem a w v := rfl
@[simp] theorem State.storeTo_imem (a : Word) (w : Width) (v : Word) : (s.storeTo a w v).imem = s.imem := rfl
@[simp] theorem State.storeTo_console (a : Word) (w : Width) (v : Word) : (s.storeTo a w v).console = 
    if Config.inConsole s.cfg a then s.console ++ [bytesOf v w] else s.console := rfl
@[simp] theorem State.storeTo_ports (a : Word) (w : Width) (v : Word) : (s.storeTo a w v).ports = s.ports := rfl
@[simp] theorem State.storeTo_out (a : Word) (w : Width) (v : Word) : (s.storeTo a w v).out = s.out := rfl
@[simp] theorem State.storeTo_predictOut (a : Word) (w : Width) (v : Word) : (s.storeTo a w v).predictOut = 
    s.predictOut := rfl
@[simp] theorem State.storeTo_schedule (a : Word) (w : Width) (v : Word) : (s.storeTo a w v).schedule = s.schedule := rfl
@[simp] theorem State.storeTo_tickIndex (a : Word) (w : Width) (v : Word) : (s.storeTo a w v).tickIndex = s.tickIndex := rfl
@[simp] theorem State.storeTo_modified (a : Word) (w : Width) (v : Word) : (s.storeTo a w v).modified = 
    if Config.inConsole s.cfg a || s.cfg.instrSpace == .separate then s.modified
      else markModified s.modified a (bytesOf v w) := rfl

@[simp] theorem State.cycleTick_cfg : (s.cycleTick).cfg = s.cfg := rfl
@[simp] theorem State.cycleTick_fetchPc : (s.cycleTick).fetchPc = s.fetchPc := rfl
@[simp] theorem State.cycleTick_fetchStall : (s.cycleTick).fetchStall = s.fetchStall := rfl
@[simp] theorem State.cycleTick_cycle : (s.cycleTick).cycle = s.cycle + 1#64 := rfl
@[simp] theorem State.cycleTick_instret : (s.cycleTick).instret = s.instret := rfl
@[simp] theorem State.cycleTick_btb : (s.cycleTick).btb = s.btb := rfl
@[simp] theorem State.cycleTick_bht : (s.cycleTick).bht = s.bht := rfl
@[simp] theorem State.cycleTick_bhr : (s.cycleTick).bhr = s.bhr := rfl
@[simp] theorem State.cycleTick_fatal : (s.cycleTick).fatal = s.fatal := rfl
@[simp] theorem State.cycleTick_fatalCause : (s.cycleTick).fatalCause = s.fatalCause := rfl
@[simp] theorem State.cycleTick_inflight : (s.cycleTick).inflight = s.inflight := rfl
@[simp] theorem State.cycleTick_regs : (s.cycleTick).regs = s.regs := rfl
@[simp] theorem State.cycleTick_mem : (s.cycleTick).mem = s.mem := rfl
@[simp] theorem State.cycleTick_imem : (s.cycleTick).imem = s.imem := rfl
@[simp] theorem State.cycleTick_console : (s.cycleTick).console = s.console := rfl
@[simp] theorem State.cycleTick_ports : (s.cycleTick).ports = s.ports := rfl
@[simp] theorem State.cycleTick_out : (s.cycleTick).out = s.out := rfl
@[simp] theorem State.cycleTick_predictOut : (s.cycleTick).predictOut = s.predictOut := rfl
@[simp] theorem State.cycleTick_schedule : (s.cycleTick).schedule = s.schedule := rfl
@[simp] theorem State.cycleTick_tickIndex : (s.cycleTick).tickIndex = s.tickIndex := rfl
@[simp] theorem State.cycleTick_modified : (s.cycleTick).modified = s.modified := rfl

@[simp] theorem State.retireTick_cfg : (s.retireTick).cfg = s.cfg := rfl
@[simp] theorem State.retireTick_fetchPc : (s.retireTick).fetchPc = s.fetchPc := rfl
@[simp] theorem State.retireTick_fetchStall : (s.retireTick).fetchStall = s.fetchStall := rfl
@[simp] theorem State.retireTick_cycle : (s.retireTick).cycle = s.cycle := rfl
@[simp] theorem State.retireTick_instret : (s.retireTick).instret = s.instret + 1#64 := rfl
@[simp] theorem State.retireTick_btb : (s.retireTick).btb = s.btb := rfl
@[simp] theorem State.retireTick_bht : (s.retireTick).bht = s.bht := rfl
@[simp] theorem State.retireTick_bhr : (s.retireTick).bhr = s.bhr := rfl
@[simp] theorem State.retireTick_fatal : (s.retireTick).fatal = s.fatal := rfl
@[simp] theorem State.retireTick_fatalCause : (s.retireTick).fatalCause = s.fatalCause := rfl
@[simp] theorem State.retireTick_inflight : (s.retireTick).inflight = s.inflight := rfl
@[simp] theorem State.retireTick_regs : (s.retireTick).regs = s.regs := rfl
@[simp] theorem State.retireTick_mem : (s.retireTick).mem = s.mem := rfl
@[simp] theorem State.retireTick_imem : (s.retireTick).imem = s.imem := rfl
@[simp] theorem State.retireTick_console : (s.retireTick).console = s.console := rfl
@[simp] theorem State.retireTick_ports : (s.retireTick).ports = s.ports := rfl
@[simp] theorem State.retireTick_out : (s.retireTick).out = s.out := rfl
@[simp] theorem State.retireTick_predictOut : (s.retireTick).predictOut = s.predictOut := rfl
@[simp] theorem State.retireTick_schedule : (s.retireTick).schedule = s.schedule := rfl
@[simp] theorem State.retireTick_tickIndex : (s.retireTick).tickIndex = s.tickIndex := rfl
@[simp] theorem State.retireTick_modified : (s.retireTick).modified = s.modified := rfl

@[simp] theorem State.freeTicks_cfg : (s.freeTicks).cfg = s.cfg := rfl
@[simp] theorem State.freeTicks_fetchPc : (s.freeTicks).fetchPc = s.fetchPc := rfl
@[simp] theorem State.freeTicks_fetchStall : (s.freeTicks).fetchStall = s.fetchStall := rfl
@[simp] theorem State.freeTicks_cycle : (s.freeTicks).cycle = 
    s.cycle + BitVec.ofNat 64 (Config.cycleTicks s.tickIndex) := rfl
@[simp] theorem State.freeTicks_instret : (s.freeTicks).instret = 
    s.instret + BitVec.ofNat 64 (Config.retireTicks s.tickIndex) := rfl
@[simp] theorem State.freeTicks_btb : (s.freeTicks).btb = s.btb := rfl
@[simp] theorem State.freeTicks_bht : (s.freeTicks).bht = s.bht := rfl
@[simp] theorem State.freeTicks_bhr : (s.freeTicks).bhr = s.bhr := rfl
@[simp] theorem State.freeTicks_fatal : (s.freeTicks).fatal = s.fatal := rfl
@[simp] theorem State.freeTicks_fatalCause : (s.freeTicks).fatalCause = s.fatalCause := rfl
@[simp] theorem State.freeTicks_inflight : (s.freeTicks).inflight = s.inflight := rfl
@[simp] theorem State.freeTicks_regs : (s.freeTicks).regs = s.regs := rfl
@[simp] theorem State.freeTicks_mem : (s.freeTicks).mem = s.mem := rfl
@[simp] theorem State.freeTicks_imem : (s.freeTicks).imem = s.imem := rfl
@[simp] theorem State.freeTicks_console : (s.freeTicks).console = s.console := rfl
@[simp] theorem State.freeTicks_ports : (s.freeTicks).ports = s.ports := rfl
@[simp] theorem State.freeTicks_out : (s.freeTicks).out = s.out := rfl
@[simp] theorem State.freeTicks_predictOut : (s.freeTicks).predictOut = s.predictOut := rfl
@[simp] theorem State.freeTicks_schedule : (s.freeTicks).schedule = s.schedule := rfl
@[simp] theorem State.freeTicks_tickIndex : (s.freeTicks).tickIndex = s.tickIndex + 1 := rfl
@[simp] theorem State.freeTicks_modified : (s.freeTicks).modified = s.modified := rfl

@[simp] theorem State.redirectTo_cfg (b : Bool) (pc : Word) : (s.redirectTo b pc).cfg = s.cfg := rfl
@[simp] theorem State.redirectTo_fetchPc (b : Bool) (pc : Word) : (s.redirectTo b pc).fetchPc = 
    if b then pc else s.fetchPc := rfl
@[simp] theorem State.redirectTo_fetchStall (b : Bool) (pc : Word) : (s.redirectTo b pc).fetchStall = 
    if b then false else s.fetchStall := rfl
@[simp] theorem State.redirectTo_cycle (b : Bool) (pc : Word) : (s.redirectTo b pc).cycle = s.cycle := rfl
@[simp] theorem State.redirectTo_instret (b : Bool) (pc : Word) : (s.redirectTo b pc).instret = s.instret := rfl
@[simp] theorem State.redirectTo_btb (b : Bool) (pc : Word) : (s.redirectTo b pc).btb = s.btb := rfl
@[simp] theorem State.redirectTo_bht (b : Bool) (pc : Word) : (s.redirectTo b pc).bht = s.bht := rfl
@[simp] theorem State.redirectTo_bhr (b : Bool) (pc : Word) : (s.redirectTo b pc).bhr = s.bhr := rfl
@[simp] theorem State.redirectTo_fatal (b : Bool) (pc : Word) : (s.redirectTo b pc).fatal = s.fatal := rfl
@[simp] theorem State.redirectTo_fatalCause (b : Bool) (pc : Word) : (s.redirectTo b pc).fatalCause = s.fatalCause := rfl
@[simp] theorem State.redirectTo_inflight (b : Bool) (pc : Word) : (s.redirectTo b pc).inflight = 
    if b then [] else s.inflight := rfl
@[simp] theorem State.redirectTo_regs (b : Bool) (pc : Word) : (s.redirectTo b pc).regs = s.regs := rfl
@[simp] theorem State.redirectTo_mem (b : Bool) (pc : Word) : (s.redirectTo b pc).mem = s.mem := rfl
@[simp] theorem State.redirectTo_imem (b : Bool) (pc : Word) : (s.redirectTo b pc).imem = s.imem := rfl
@[simp] theorem State.redirectTo_console (b : Bool) (pc : Word) : (s.redirectTo b pc).console = s.console := rfl
@[simp] theorem State.redirectTo_ports (b : Bool) (pc : Word) : (s.redirectTo b pc).ports = s.ports := rfl
@[simp] theorem State.redirectTo_out (b : Bool) (pc : Word) : (s.redirectTo b pc).out = s.out := rfl
@[simp] theorem State.redirectTo_predictOut (b : Bool) (pc : Word) : (s.redirectTo b pc).predictOut = s.predictOut := rfl
@[simp] theorem State.redirectTo_schedule (b : Bool) (pc : Word) : (s.redirectTo b pc).schedule = s.schedule := rfl
@[simp] theorem State.redirectTo_tickIndex (b : Bool) (pc : Word) : (s.redirectTo b pc).tickIndex = s.tickIndex := rfl
@[simp] theorem State.redirectTo_modified (b : Bool) (pc : Word) : (s.redirectTo b pc).modified = 
    if b then [] else s.modified := rfl

@[simp] theorem State.drive_cfg (o : Outputs) : (s.drive o).cfg = s.cfg := rfl
@[simp] theorem State.drive_fetchPc (o : Outputs) : (s.drive o).fetchPc = s.fetchPc := rfl
@[simp] theorem State.drive_fetchStall (o : Outputs) : (s.drive o).fetchStall = s.fetchStall := rfl
@[simp] theorem State.drive_cycle (o : Outputs) : (s.drive o).cycle = s.cycle := rfl
@[simp] theorem State.drive_instret (o : Outputs) : (s.drive o).instret = s.instret := rfl
@[simp] theorem State.drive_btb (o : Outputs) : (s.drive o).btb = s.btb := rfl
@[simp] theorem State.drive_bht (o : Outputs) : (s.drive o).bht = s.bht := rfl
@[simp] theorem State.drive_bhr (o : Outputs) : (s.drive o).bhr = s.bhr := rfl
@[simp] theorem State.drive_fatal (o : Outputs) : (s.drive o).fatal = s.fatal := rfl
@[simp] theorem State.drive_fatalCause (o : Outputs) : (s.drive o).fatalCause = s.fatalCause := rfl
@[simp] theorem State.drive_inflight (o : Outputs) : (s.drive o).inflight = s.inflight := rfl
@[simp] theorem State.drive_regs (o : Outputs) : (s.drive o).regs = s.regs := rfl
@[simp] theorem State.drive_mem (o : Outputs) : (s.drive o).mem = s.mem := rfl
@[simp] theorem State.drive_imem (o : Outputs) : (s.drive o).imem = s.imem := rfl
@[simp] theorem State.drive_console (o : Outputs) : (s.drive o).console = s.console := rfl
@[simp] theorem State.drive_ports (o : Outputs) : (s.drive o).ports = s.ports := rfl
@[simp] theorem State.drive_out (o : Outputs) : (s.drive o).out = o := rfl
@[simp] theorem State.drive_predictOut (o : Outputs) : (s.drive o).predictOut = s.predictOut := rfl
@[simp] theorem State.drive_schedule (o : Outputs) : (s.drive o).schedule = s.schedule := rfl
@[simp] theorem State.drive_tickIndex (o : Outputs) : (s.drive o).tickIndex = s.tickIndex := rfl
@[simp] theorem State.drive_modified (o : Outputs) : (s.drive o).modified = s.modified := rfl

@[simp] theorem State.update_cfg (u : Bool) (pc n : Word) (t : Bool) : (s.update u pc n t).cfg = s.cfg := rfl
@[simp] theorem State.update_fetchPc (u : Bool) (pc n : Word) (t : Bool) : (s.update u pc n t).fetchPc = s.fetchPc := rfl
@[simp] theorem State.update_fetchStall (u : Bool) (pc n : Word) (t : Bool) : (s.update u pc n t).fetchStall = 
    s.fetchStall := rfl
@[simp] theorem State.update_cycle (u : Bool) (pc n : Word) (t : Bool) : (s.update u pc n t).cycle = s.cycle := rfl
@[simp] theorem State.update_instret (u : Bool) (pc n : Word) (t : Bool) : (s.update u pc n t).instret = s.instret := rfl
@[simp] theorem State.update_bhr (u : Bool) (pc n : Word) (t : Bool) : (s.update u pc n t).bhr = 
    if u && s.cfg.predictor == .gshare then ((s.bhr <<< 1) ||| BitVec.ofNat 32 t.toNat) &&& maskOf s.cfg.histBits
      else s.bhr := rfl
@[simp] theorem State.update_fatal (u : Bool) (pc n : Word) (t : Bool) : (s.update u pc n t).fatal = s.fatal := rfl
@[simp] theorem State.update_fatalCause (u : Bool) (pc n : Word) (t : Bool) : (s.update u pc n t).fatalCause = 
    s.fatalCause := rfl
@[simp] theorem State.update_inflight (u : Bool) (pc n : Word) (t : Bool) : (s.update u pc n t).inflight = s.inflight := rfl
@[simp] theorem State.update_regs (u : Bool) (pc n : Word) (t : Bool) : (s.update u pc n t).regs = s.regs := rfl
@[simp] theorem State.update_mem (u : Bool) (pc n : Word) (t : Bool) : (s.update u pc n t).mem = s.mem := rfl
@[simp] theorem State.update_imem (u : Bool) (pc n : Word) (t : Bool) : (s.update u pc n t).imem = s.imem := rfl
@[simp] theorem State.update_console (u : Bool) (pc n : Word) (t : Bool) : (s.update u pc n t).console = s.console := rfl
@[simp] theorem State.update_ports (u : Bool) (pc n : Word) (t : Bool) : (s.update u pc n t).ports = s.ports := rfl
@[simp] theorem State.update_out (u : Bool) (pc n : Word) (t : Bool) : (s.update u pc n t).out = s.out := rfl
@[simp] theorem State.update_predictOut (u : Bool) (pc n : Word) (t : Bool) : (s.update u pc n t).predictOut = 
    s.predictOut := rfl
@[simp] theorem State.update_schedule (u : Bool) (pc n : Word) (t : Bool) : (s.update u pc n t).schedule = s.schedule := rfl
@[simp] theorem State.update_tickIndex (u : Bool) (pc n : Word) (t : Bool) : (s.update u pc n t).tickIndex = 
    s.tickIndex := rfl
@[simp] theorem State.update_modified (u : Bool) (pc n : Word) (t : Bool) : (s.update u pc n t).modified = s.modified := rfl

@[simp] theorem State.withOperands_cfg (v1 v2 : Word) : (s.withOperands v1 v2).cfg = s.cfg := rfl
@[simp] theorem State.withOperands_fetchPc (v1 v2 : Word) : (s.withOperands v1 v2).fetchPc = s.fetchPc := rfl
@[simp] theorem State.withOperands_fetchStall (v1 v2 : Word) : (s.withOperands v1 v2).fetchStall = s.fetchStall := rfl
@[simp] theorem State.withOperands_cycle (v1 v2 : Word) : (s.withOperands v1 v2).cycle = s.cycle := rfl
@[simp] theorem State.withOperands_instret (v1 v2 : Word) : (s.withOperands v1 v2).instret = s.instret := rfl
@[simp] theorem State.withOperands_btb (v1 v2 : Word) : (s.withOperands v1 v2).btb = s.btb := rfl
@[simp] theorem State.withOperands_bht (v1 v2 : Word) : (s.withOperands v1 v2).bht = s.bht := rfl
@[simp] theorem State.withOperands_bhr (v1 v2 : Word) : (s.withOperands v1 v2).bhr = s.bhr := rfl
@[simp] theorem State.withOperands_fatal (v1 v2 : Word) : (s.withOperands v1 v2).fatal = s.fatal := rfl
@[simp] theorem State.withOperands_fatalCause (v1 v2 : Word) : (s.withOperands v1 v2).fatalCause = s.fatalCause := rfl
@[simp] theorem State.withOperands_inflight (v1 v2 : Word) : (s.withOperands v1 v2).inflight = s.inflight := rfl
@[simp] theorem State.withOperands_regs (v1 v2 : Word) : (s.withOperands v1 v2).regs = s.regs := rfl
@[simp] theorem State.withOperands_mem (v1 v2 : Word) : (s.withOperands v1 v2).mem = s.mem := rfl
@[simp] theorem State.withOperands_imem (v1 v2 : Word) : (s.withOperands v1 v2).imem = s.imem := rfl
@[simp] theorem State.withOperands_console (v1 v2 : Word) : (s.withOperands v1 v2).console = s.console := rfl
@[simp] theorem State.withOperands_ports (v1 v2 : Word) : (s.withOperands v1 v2).ports = 
    { s.ports with rs1Value := v1, rs2Value := v2 } := rfl
@[simp] theorem State.withOperands_out (v1 v2 : Word) : (s.withOperands v1 v2).out = s.out := rfl
@[simp] theorem State.withOperands_predictOut (v1 v2 : Word) : (s.withOperands v1 v2).predictOut = s.predictOut := rfl
@[simp] theorem State.withOperands_schedule (v1 v2 : Word) : (s.withOperands v1 v2).schedule = s.schedule := rfl
@[simp] theorem State.withOperands_tickIndex (v1 v2 : Word) : (s.withOperands v1 v2).tickIndex = s.tickIndex := rfl
@[simp] theorem State.withOperands_modified (v1 v2 : Word) : (s.withOperands v1 v2).modified = s.modified := rfl

@[simp] theorem State.fetchItem_cfg (i : Fetched) (src : OperandSource) : (s.fetchItem i src).cfg = s.cfg := rfl
@[simp] theorem State.fetchItem_fetchPc (i : Fetched) (src : OperandSource) : (s.fetchItem i src).fetchPc = 
    s.nextFetchPc s.fetchPc i src := rfl
@[simp] theorem State.fetchItem_fetchStall (i : Fetched) (src : OperandSource) : (s.fetchItem i src).fetchStall = 
    s.fetchStall := rfl
@[simp] theorem State.fetchItem_cycle (i : Fetched) (src : OperandSource) : (s.fetchItem i src).cycle = s.cycle := rfl
@[simp] theorem State.fetchItem_instret (i : Fetched) (src : OperandSource) : (s.fetchItem i src).instret = s.instret := rfl
@[simp] theorem State.fetchItem_btb (i : Fetched) (src : OperandSource) : (s.fetchItem i src).btb = s.btb := rfl
@[simp] theorem State.fetchItem_bht (i : Fetched) (src : OperandSource) : (s.fetchItem i src).bht = s.bht := rfl
@[simp] theorem State.fetchItem_bhr (i : Fetched) (src : OperandSource) : (s.fetchItem i src).bhr = s.bhr := rfl
@[simp] theorem State.fetchItem_fatal (i : Fetched) (src : OperandSource) : (s.fetchItem i src).fatal = s.fatal := rfl
@[simp] theorem State.fetchItem_fatalCause (i : Fetched) (src : OperandSource) : (s.fetchItem i src).fatalCause = 
    s.fatalCause := rfl
@[simp] theorem State.fetchItem_inflight (i : Fetched) (src : OperandSource) : (s.fetchItem i src).inflight = 
    s.inflight ++ [{ pc := s.fetchPc, item := i, source := src }] := rfl
@[simp] theorem State.fetchItem_regs (i : Fetched) (src : OperandSource) : (s.fetchItem i src).regs = s.regs := rfl
@[simp] theorem State.fetchItem_mem (i : Fetched) (src : OperandSource) : (s.fetchItem i src).mem = s.mem := rfl
@[simp] theorem State.fetchItem_imem (i : Fetched) (src : OperandSource) : (s.fetchItem i src).imem = s.imem := rfl
@[simp] theorem State.fetchItem_console (i : Fetched) (src : OperandSource) : (s.fetchItem i src).console = s.console := rfl
@[simp] theorem State.fetchItem_ports (i : Fetched) (src : OperandSource) : (s.fetchItem i src).ports = s.ports := rfl
@[simp] theorem State.fetchItem_out (i : Fetched) (src : OperandSource) : (s.fetchItem i src).out = s.out := rfl
@[simp] theorem State.fetchItem_predictOut (i : Fetched) (src : OperandSource) : (s.fetchItem i src).predictOut = 
    s.predictOut := rfl
@[simp] theorem State.fetchItem_schedule (i : Fetched) (src : OperandSource) : (s.fetchItem i src).schedule = 
    s.schedule := rfl
@[simp] theorem State.fetchItem_tickIndex (i : Fetched) (src : OperandSource) : (s.fetchItem i src).tickIndex = 
    s.tickIndex := rfl
@[simp] theorem State.fetchItem_modified (i : Fetched) (src : OperandSource) : (s.fetchItem i src).modified = 
    s.modified := rfl

@[simp] theorem State.issue_cfg (d : InFlight) : (s.issue d).cfg = s.cfg := rfl
@[simp] theorem State.issue_fetchPc (d : InFlight) : (s.issue d).fetchPc = s.fetchPc := rfl
@[simp] theorem State.issue_fetchStall (d : InFlight) : (s.issue d).fetchStall = s.fetchStall := rfl
@[simp] theorem State.issue_cycle (d : InFlight) : (s.issue d).cycle = 
    s.cycle + BitVec.ofNat 64 (Config.cycleTicks s.tickIndex) := rfl
@[simp] theorem State.issue_instret (d : InFlight) : (s.issue d).instret = 
    s.instret + BitVec.ofNat 64 (Config.retireTicks s.tickIndex) := rfl
@[simp] theorem State.issue_btb (d : InFlight) : (s.issue d).btb = s.btb := rfl
@[simp] theorem State.issue_bht (d : InFlight) : (s.issue d).bht = s.bht := rfl
@[simp] theorem State.issue_bhr (d : InFlight) : (s.issue d).bhr = s.bhr := rfl
@[simp] theorem State.issue_fatal (d : InFlight) : (s.issue d).fatal = s.fatal := rfl
@[simp] theorem State.issue_fatalCause (d : InFlight) : (s.issue d).fatalCause = s.fatalCause := rfl
@[simp] theorem State.issue_inflight (d : InFlight) : (s.issue d).inflight = s.inflight := rfl
@[simp] theorem State.issue_regs (d : InFlight) : (s.issue d).regs = s.regs := rfl
@[simp] theorem State.issue_mem (d : InFlight) : (s.issue d).mem = s.mem := rfl
@[simp] theorem State.issue_imem (d : InFlight) : (s.issue d).imem = s.imem := rfl
@[simp] theorem State.issue_console (d : InFlight) : (s.issue d).console = s.console := rfl
@[simp] theorem State.issue_ports (d : InFlight) : (s.issue d).ports = s.portsFor d := rfl
@[simp] theorem State.issue_out (d : InFlight) : (s.issue d).out = s.out := rfl
@[simp] theorem State.issue_predictOut (d : InFlight) : (s.issue d).predictOut = s.predictOut := rfl
@[simp] theorem State.issue_schedule (d : InFlight) : (s.issue d).schedule = s.schedule := rfl
@[simp] theorem State.issue_tickIndex (d : InFlight) : (s.issue d).tickIndex = s.tickIndex + 1 := rfl
@[simp] theorem State.issue_modified (d : InFlight) : (s.issue d).modified = s.modified := rfl

@[simp] theorem State.dropOldest_cfg : (s.dropOldest).cfg = s.cfg := rfl
@[simp] theorem State.dropOldest_fetchPc : (s.dropOldest).fetchPc = s.fetchPc := rfl
@[simp] theorem State.dropOldest_fetchStall : (s.dropOldest).fetchStall = s.fetchStall := rfl
@[simp] theorem State.dropOldest_cycle : (s.dropOldest).cycle = s.cycle := rfl
@[simp] theorem State.dropOldest_instret : (s.dropOldest).instret = s.instret := rfl
@[simp] theorem State.dropOldest_btb : (s.dropOldest).btb = s.btb := rfl
@[simp] theorem State.dropOldest_bht : (s.dropOldest).bht = s.bht := rfl
@[simp] theorem State.dropOldest_bhr : (s.dropOldest).bhr = s.bhr := rfl
@[simp] theorem State.dropOldest_fatal : (s.dropOldest).fatal = s.fatal := rfl
@[simp] theorem State.dropOldest_fatalCause : (s.dropOldest).fatalCause = s.fatalCause := rfl
@[simp] theorem State.dropOldest_inflight : (s.dropOldest).inflight = s.inflight.tail := rfl
@[simp] theorem State.dropOldest_regs : (s.dropOldest).regs = s.regs := rfl
@[simp] theorem State.dropOldest_mem : (s.dropOldest).mem = s.mem := rfl
@[simp] theorem State.dropOldest_imem : (s.dropOldest).imem = s.imem := rfl
@[simp] theorem State.dropOldest_console : (s.dropOldest).console = s.console := rfl
@[simp] theorem State.dropOldest_ports : (s.dropOldest).ports = s.ports := rfl
@[simp] theorem State.dropOldest_out : (s.dropOldest).out = s.out := rfl
@[simp] theorem State.dropOldest_predictOut : (s.dropOldest).predictOut = s.predictOut := rfl
@[simp] theorem State.dropOldest_schedule : (s.dropOldest).schedule = s.schedule := rfl
@[simp] theorem State.dropOldest_tickIndex : (s.dropOldest).tickIndex = s.tickIndex := rfl
@[simp] theorem State.dropOldest_modified : (s.dropOldest).modified = s.modified := rfl

@[simp] theorem State.placeWord_cfg (a : Word) (w : BitVec 32) : (s.placeWord a w).cfg = s.cfg := rfl
@[simp] theorem State.placeWord_fetchPc (a : Word) (w : BitVec 32) : (s.placeWord a w).fetchPc = s.fetchPc := rfl
@[simp] theorem State.placeWord_fetchStall (a : Word) (w : BitVec 32) : (s.placeWord a w).fetchStall = s.fetchStall := rfl
@[simp] theorem State.placeWord_cycle (a : Word) (w : BitVec 32) : (s.placeWord a w).cycle = s.cycle := rfl
@[simp] theorem State.placeWord_instret (a : Word) (w : BitVec 32) : (s.placeWord a w).instret = s.instret := rfl
@[simp] theorem State.placeWord_btb (a : Word) (w : BitVec 32) : (s.placeWord a w).btb = s.btb := rfl
@[simp] theorem State.placeWord_bht (a : Word) (w : BitVec 32) : (s.placeWord a w).bht = s.bht := rfl
@[simp] theorem State.placeWord_bhr (a : Word) (w : BitVec 32) : (s.placeWord a w).bhr = s.bhr := rfl
@[simp] theorem State.placeWord_fatal (a : Word) (w : BitVec 32) : (s.placeWord a w).fatal = s.fatal := rfl
@[simp] theorem State.placeWord_fatalCause (a : Word) (w : BitVec 32) : (s.placeWord a w).fatalCause = s.fatalCause := rfl
@[simp] theorem State.placeWord_inflight (a : Word) (w : BitVec 32) : (s.placeWord a w).inflight = s.inflight := rfl
@[simp] theorem State.placeWord_regs (a : Word) (w : BitVec 32) : (s.placeWord a w).regs = s.regs := rfl
@[simp] theorem State.placeWord_mem (a : Word) (w : BitVec 32) : (s.placeWord a w).mem = 
    match s.cfg.instrSpace with | .unified => writeBytes s.mem a (bytesOfWord w) | .separate => s.mem := rfl
@[simp] theorem State.placeWord_imem (a : Word) (w : BitVec 32) : (s.placeWord a w).imem = 
    match s.cfg.instrSpace with | .unified => s.imem | .separate => writeBytes s.imem a (bytesOfWord w) := rfl
@[simp] theorem State.placeWord_console (a : Word) (w : BitVec 32) : (s.placeWord a w).console = s.console := rfl
@[simp] theorem State.placeWord_ports (a : Word) (w : BitVec 32) : (s.placeWord a w).ports = s.ports := rfl
@[simp] theorem State.placeWord_out (a : Word) (w : BitVec 32) : (s.placeWord a w).out = s.out := rfl
@[simp] theorem State.placeWord_predictOut (a : Word) (w : BitVec 32) : (s.placeWord a w).predictOut = s.predictOut := rfl
@[simp] theorem State.placeWord_schedule (a : Word) (w : BitVec 32) : (s.placeWord a w).schedule = s.schedule := rfl
@[simp] theorem State.placeWord_tickIndex (a : Word) (w : BitVec 32) : (s.placeWord a w).tickIndex = s.tickIndex := rfl
@[simp] theorem State.placeWord_modified (a : Word) (w : BitVec 32) : (s.placeWord a w).modified = s.modified := rfl

@[simp] theorem State.readyToFetch_cfg : (s.readyToFetch).cfg = s.cfg := rfl
@[simp] theorem State.readyToFetch_fetchPc : (s.readyToFetch).fetchPc = s.fetchPc &&& 0xFFFFFFFC#32 := rfl
@[simp] theorem State.readyToFetch_fetchStall : (s.readyToFetch).fetchStall = false := rfl
@[simp] theorem State.readyToFetch_cycle : (s.readyToFetch).cycle = s.cycle := rfl
@[simp] theorem State.readyToFetch_instret : (s.readyToFetch).instret = s.instret := rfl
@[simp] theorem State.readyToFetch_btb : (s.readyToFetch).btb = s.btb := rfl
@[simp] theorem State.readyToFetch_bht : (s.readyToFetch).bht = s.bht := rfl
@[simp] theorem State.readyToFetch_bhr : (s.readyToFetch).bhr = s.bhr := rfl
@[simp] theorem State.readyToFetch_fatal : (s.readyToFetch).fatal = s.fatal := rfl
@[simp] theorem State.readyToFetch_fatalCause : (s.readyToFetch).fatalCause = s.fatalCause := rfl
@[simp] theorem State.readyToFetch_inflight : (s.readyToFetch).inflight = [] := rfl
@[simp] theorem State.readyToFetch_regs : (s.readyToFetch).regs = s.regs := rfl
@[simp] theorem State.readyToFetch_mem : (s.readyToFetch).mem = s.mem := rfl
@[simp] theorem State.readyToFetch_imem : (s.readyToFetch).imem = s.imem := rfl
@[simp] theorem State.readyToFetch_console : (s.readyToFetch).console = s.console := rfl
@[simp] theorem State.readyToFetch_ports : (s.readyToFetch).ports = s.ports := rfl
@[simp] theorem State.readyToFetch_out : (s.readyToFetch).out = s.out := rfl
@[simp] theorem State.readyToFetch_predictOut : (s.readyToFetch).predictOut = s.predictOut := rfl
@[simp] theorem State.readyToFetch_schedule : (s.readyToFetch).schedule = [] := rfl
@[simp] theorem State.readyToFetch_tickIndex : (s.readyToFetch).tickIndex = s.tickIndex := rfl
@[simp] theorem State.readyToFetch_modified : (s.readyToFetch).modified = [] := rfl

end Sys2Proof.Machine
end

