-- ==== Sys2Proof/Laws/Execute.lean ====
section
/-! SUPPORT. What one Execute transaction can do, said once: its stages one by one, and the state it leaves when no stage fails. -/

namespace Sys2Proof.Machine

/-! ### The stages -/

@[simp] theorem readReg_zero (s : State) : s.readReg 0#5 = 0#32 := by simp [State.readReg]

/-- An update of anything but the register file leaves every register as it reads. -/
theorem readReg_congr {s t : State} (h : t.regs = s.regs) (r : RegIdx) : t.readReg r = s.readReg r := by simp [State.readReg, h]

@[simp] theorem readReg_withOperands (s : State) (v1 v2 : Word) (r : RegIdx) : (s.withOperands v1 v2).readReg r = s.readReg r := rfl

/-- Reading after a write-back: the written register, unless it is x0, gives the value; every other as before. -/
theorem readReg_of_regsWith {s t : State} {rd : RegIdx} {v : Word} (h : t.regs = s.regsWith rd v) (r : RegIdx) :
    t.readReg r = if r = rd ∧ rd ≠ 0#5 then v else s.readReg r := by
  by_cases hr : r = 0#5
  · subst hr
    by_cases hd : (0#5 : RegIdx) = rd
    · simp [← hd]
    · simp [hd]
  · by_cases hd : rd = 0#5
    · simp [State.readReg, h, State.regsWith, hd]
    · simp only [State.readReg, h, State.regsWith, hr, hd, if_false]
      by_cases he : r = rd
      · subst he; simp [hr]
      · have : rd.toNat ≠ r.toNat := fun e => he (BitVec.eq_of_toNat_eq e.symm)
        simp [he, Vector.getElem_set_ne, this]

/-- The selector code of an ALU row fixes the operation; nothing else of the bundle takes part but the operand flags and `imm`. -/
theorem compute_eq (b : Bundle) (p : Ports) : compute b p = aluOf b.aluOp (operand1 b p) (operand2 b p) := rfl

@[simp] theorem operand1_asAlu (b : Bundle) (k : BitVec 4) (p : Ports) : operand1 (b.asAlu k) p = operand1 b p := rfl
@[simp] theorem operand2_asAlu (b : Bundle) (k : BitVec 4) (p : Ports) : operand2 (b.asAlu k) p = operand2 b p := rfl
@[simp] theorem compute_asBr (b : Bundle) (k : BitVec 4) (p : Ports) : compute (b.asBr k) p = compute b p := rfl
@[simp] theorem compute_asLoad (b : Bundle) (f : BitVec 3) (p : Ports) : compute (b.asLoad f) p = compute b p := rfl
@[simp] theorem compute_asStore (b : Bundle) (f : BitVec 2) (p : Ports) : compute (b.asStore f) p = compute b p := rfl
@[simp] theorem compute_asCsr (b : Bundle) (p : Ports) : compute b.asCsr p = compute b p := rfl
@[simp] theorem compute_asPass (b : Bundle) (p : Ports) : compute b.asPass p = compute b p := rfl

/-- A transaction with no class flag and `br_op` = NONE whose ALU answers `v`. -/
theorem execute_none {b : Bundle} {s : State} {v : Word} (hf : s.fatal = false) (hc : b.noClass = true) (hb : b.brOp = 0#4)
    (hv : compute b s.ports = .ok v) : execute b s = .next (s.afterNone b.rd v v) := by
  simp only [Bundle.noClass, Bool.and_eq_true, Bool.not_eq_true'] at hc
  obtain ⟨⟨h1, h2⟩, h3⟩ := hc
  simp only [execute, hf, bundleWellFormed, h1, h2, h3, hb, hv, resolve, takenOf, access]
  cases hp : s.cfg.redirectPolicy <;>
    simp [State.commit, State.afterNone, State.update, State.redirectTo, State.drive, State.writeReg, State.regsWith, outputsOf,
      redirectOf, mayRedirect, targetOf, hp]

/-- The parts of a class check. -/
theorem noClass_iff (b : Bundle) : b.noClass = true ↔ b.isLoad = false ∧ b.isStore = false ∧ b.isCsr = false := by
  simp [Bundle.noClass, and_assoc]

/-- A branch or jump bundle is well-formed where it has no class flag (R52). -/
theorem bundleWellFormed_branch {b : Bundle} (hb : b.brOp ≠ 0#4) : bundleWellFormed b = b.noClass := by
  have h : (b.brOp == 0#4) = false := by simpa using hb
  simp only [bundleWellFormed, Bundle.noClass, h]
  cases b.isLoad <;> cases b.isStore <;> cases b.isCsr <;> rfl

/-- A load transaction whose ALU answers the address `a` and whose width check passes. -/
theorem execute_load {b : Bundle} {s : State} {a v : Word} (hf : s.fatal = false)
    (hc : b.isLoad = true ∧ b.isStore = false ∧ b.isCsr = false ∧ b.brOp = 0#4) (ha : compute b s.ports = .ok a)
    (hl : s.load b.func3 a = .ok v) : execute b s = .next (s.afterNone b.rd a v) := by
  obtain ⟨h1, h2, h3, hb⟩ := hc
  simp only [execute, hf, bundleWellFormed, h1, h2, h3, hb, ha, resolve, takenOf, access]
  cases hp : s.cfg.redirectPolicy <;>
    simp [State.commit, State.afterNone, State.update, State.redirectTo, State.drive, State.writeReg, State.regsWith, outputsOf,
      redirectOf, mayRedirect, targetOf, hp, hl]

/-- A load whose width code is reserved. -/
theorem execute_load_error {b : Bundle} {s : State} {a : Word} {c : FatalCause} (hf : s.fatal = false)
    (hc : b.isLoad = true ∧ b.isStore = false ∧ b.isCsr = false ∧ b.brOp = 0#4) (ha : compute b s.ports = .ok a)
    (hw : widthOf b.func3 = .error c) : execute b s = raiseFatal c := by
  obtain ⟨h1, h2, h3, hb⟩ := hc
  simp [execute, hf, bundleWellFormed, h1, h2, h3, hb, ha, resolve, takenOf, access, targetOf, State.load, hw]

/-- A store transaction whose ALU answers the address `a` and whose width check passes. -/
theorem execute_store {b : Bundle} {s : State} {a : Word} {w : Width} (hf : s.fatal = false)
    (hc : b.isLoad = false ∧ b.isStore = true ∧ b.isCsr = false ∧ b.brOp = 0#4) (ha : compute b s.ports = .ok a)
    (hw : widthOf b.func3 = .ok w) : execute b s = .next ((s.storeTo a w s.ports.rs2Value).afterNone b.rd a a) := by
  obtain ⟨h1, h2, h3, hb⟩ := hc
  simp only [execute, hf, bundleWellFormed, h1, h2, h3, hb, ha, resolve, takenOf, access, State.store, hw]
  cases hp : s.cfg.redirectPolicy <;>
    simp [State.commit, State.afterNone, State.update, State.redirectTo, State.drive, State.writeReg, State.regsWith, outputsOf,
      redirectOf, mayRedirect, targetOf, hp, State.storeTo]

/-- A store whose width code is reserved. -/
theorem execute_store_error {b : Bundle} {s : State} {a : Word} {c : FatalCause} (hf : s.fatal = false)
    (hc : b.isLoad = false ∧ b.isStore = true ∧ b.isCsr = false ∧ b.brOp = 0#4) (ha : compute b s.ports = .ok a)
    (hw : widthOf b.func3 = .error c) : execute b s = raiseFatal c := by
  obtain ⟨h1, h2, h3, hb⟩ := hc
  simp [execute, hf, bundleWellFormed, h1, h2, h3, hb, ha, resolve, takenOf, access, targetOf, State.store, hw]

/-- A CSR access that does not fail changes nothing and answers what CsrRead answers. -/
theorem csrAccess_ok {s s' : State} {a new old : Word} (h : s.csrAccess a new = .ok (old, s')) :
    s.csrRead a = .ok old ∧ s' = s := by
  simp only [State.csrAccess] at h
  cases hr : s.csrRead a with
  | error c => simp [hr] at h
  | ok o =>
    simp only [hr, State.csrWrite] at h
    split at h
    · split at h
      · cases h
      · rename_i q hq
        split at hq
        · simp_all
        · split at hq <;> cases hq
    · simp_all

/-- A CSR transaction whose ALU answers `new` and whose access answers `old`. -/
theorem execute_csr {b : Bundle} {s s' : State} {new old : Word} (hf : s.fatal = false)
    (hc : b.isLoad = false ∧ b.isStore = false ∧ b.isCsr = true ∧ b.brOp = 0#4) (ha : compute b s.ports = .ok new)
    (hr : s.csrAccess b.imm new = .ok (old, s')) : execute b s = .next (s.afterNone b.rd new old) := by
  obtain ⟨h1, h2, h3, hb⟩ := hc
  obtain ⟨_, rfl⟩ := csrAccess_ok hr
  simp only [execute, hf, bundleWellFormed, h1, h2, h3, hb, ha, resolve, takenOf, access]
  cases hp : s'.cfg.redirectPolicy <;>
    simp [State.commit, State.afterNone, State.update, State.redirectTo, State.drive, State.writeReg, State.regsWith, outputsOf,
      redirectOf, mayRedirect, targetOf, hp, hr]

/-- A CSR transaction whose access fails. -/
theorem execute_csr_error {b : Bundle} {s : State} {new : Word} {c : FatalCause} (hf : s.fatal = false)
    (hc : b.isLoad = false ∧ b.isStore = false ∧ b.isCsr = true ∧ b.brOp = 0#4) (ha : compute b s.ports = .ok new)
    (hr : s.csrAccess b.imm new = .error c) : execute b s = raiseFatal c := by
  obtain ⟨h1, h2, h3, hb⟩ := hc
  simp [execute, hf, bundleWellFormed, h1, h2, h3, hb, ha, resolve, takenOf, access, targetOf, hr]

/-- A branch or jump transaction: `v` is the ALU result, `tk` the outcome. -/
theorem execute_branch {b : Bundle} {s : State} {v : Word} {tk : Bool} (hf : s.fatal = false)
    (hc : b.noClass = true) (hv : compute b s.ports = .ok v) (hk : b.brOp ≠ 0#4)
    (ht : takenOf b.brOp s.ports.rs1Value s.ports.rs2Value = .ok tk) :
    execute b s = .next (s.afterBranch b.rd (if b.brOp = 1#4 ∨ b.brOp = 2#4 then fallthroughOf s.ports.pc else v) tk
      (mayRedirect b.brOp) (targetOf b.brOp v)) := by
  obtain ⟨h1, h2, h3⟩ := (noClass_iff b).mp hc
  have hk' : (b.brOp == 0#4) = false := by simpa using hk
  simp only [execute, hf, bundleWellFormed, hv, resolve, access]
  cases hp : s.cfg.redirectPolicy <;> cases tk <;>
    simp [State.commit, State.afterBranch, State.redirectTo, State.drive, State.writeReg, State.regsWith, outputsOf,
      redirectOf, hp, h1, h2, h3, ht, hk', bne]

/-! ### Everything a transaction can answer -/

/-- Everything a transaction that answers a next state can have done: the class and the branch op say which of five ways. -/
theorem execute_next {b : Bundle} {s t : State} (h : execute b s = .next t) :
    s.fatal = false ∧ ∃ v, compute b s.ports = .ok v ∧
      ((b.noClass = true ∧ b.brOp = 0#4 ∧ t = s.afterNone b.rd v v) ∨
        (b.noClass = true ∧ b.brOp ≠ 0#4 ∧ ∃ tk, takenOf b.brOp s.ports.rs1Value s.ports.rs2Value = .ok tk ∧
          t = s.afterBranch b.rd (if b.brOp = 1#4 ∨ b.brOp = 2#4 then fallthroughOf s.ports.pc else v) tk (mayRedirect b.brOp)
            (targetOf b.brOp v)) ∨
        (b.isLoad = true ∧ b.isStore = false ∧ b.brOp = 0#4 ∧ ∃ wb, s.load b.func3 v = .ok wb ∧ t = s.afterNone b.rd v wb) ∨
        (b.isStore = true ∧ b.brOp = 0#4 ∧ ∃ w, widthOf b.func3 = .ok w ∧
          t = (s.storeTo v w s.ports.rs2Value).afterNone b.rd v v) ∨
        (b.isCsr = true ∧ b.isStore = false ∧ b.brOp = 0#4 ∧ ∃ old, s.csrRead b.imm = .ok old ∧ t = s.afterNone b.rd v old)) := by
  have hf : s.fatal = false := by
    cases hf : s.fatal
    · rfl
    · simp [execute, hf] at h
  refine ⟨hf, ?_⟩
  cases hw : bundleWellFormed b with
  | false => simp [execute, hf, hw, raiseFatal] at h
  | true =>
  cases hv : compute b s.ports with
  | error c => simp [execute, hf, hv, hw, raiseFatal] at h
  | ok v =>
  refine ⟨v, rfl, ?_⟩
  by_cases hc : b.noClass = true
  · by_cases hb : b.brOp = 0#4
    · rw [execute_none hf hc hb hv] at h
      injection h with h
      exact .inl ⟨hc, hb, h.symm⟩
    · refine .inr (.inl ⟨hc, hb, ?_⟩)
      cases ht : takenOf b.brOp s.ports.rs1Value s.ports.rs2Value with
      | error c => simp [execute, hf, hw, hv, resolve, ht, raiseFatal] at h
      | ok tk =>
        rw [execute_branch hf hc hv hb ht] at h
        injection h with h
        exact ⟨tk, rfl, h.symm⟩
  · have hb : b.brOp = 0#4 := by
      simp only [bundleWellFormed, Bool.and_eq_true, Bool.or_eq_true, Bool.not_eq_true', Bool.or_eq_false_iff, beq_iff_eq] at hw
      rcases hw.2 with h | h
      · exact absurd ((noClass_iff b).mpr ⟨h.1.1, h.1.2, h.2⟩) hc
      · exact h
    cases h1 : b.isLoad <;> cases h2 : b.isStore <;> cases h3 : b.isCsr
    case false.false.false => exact absurd ((noClass_iff b).mpr ⟨h1, h2, h3⟩) hc
    case false.false.true =>
      refine .inr (.inr (.inr (.inr ⟨rfl, rfl, hb, ?_⟩)))
      cases ha : s.csrAccess b.imm v with
      | error c => rw [execute_csr_error hf ⟨h1, h2, h3, hb⟩ hv ha] at h; cases h
      | ok p =>
        rw [execute_csr (old := p.1) (s' := p.2) hf ⟨h1, h2, h3, hb⟩ hv ha] at h
        injection h with h
        exact ⟨p.1, (csrAccess_ok (s' := p.2) ha).1, h.symm⟩
    case false.true.false =>
      refine .inr (.inr (.inr (.inl ⟨rfl, hb, ?_⟩)))
      cases hwd : widthOf b.func3 with
      | error c => rw [execute_store_error hf ⟨h1, h2, h3, hb⟩ hv hwd] at h; cases h
      | ok w =>
        rw [execute_store hf ⟨h1, h2, h3, hb⟩ hv hwd] at h
        injection h with h
        exact ⟨w, rfl, h.symm⟩
    case true.false.false =>
      refine .inr (.inr (.inl ⟨rfl, rfl, hb, ?_⟩))
      cases hl : s.load b.func3 v with
      | error c =>
        have hwd : widthOf b.func3 = .error c := by
          simp only [State.load] at hl
          cases hwd : widthOf b.func3 <;> simp_all
        rw [execute_load_error hf ⟨h1, h2, h3, hb⟩ hv hwd] at h; cases h
      | ok wb =>
        rw [execute_load hf ⟨h1, h2, h3, hb⟩ hv hl] at h
        injection h with h
        exact ⟨wb, rfl, h.symm⟩
    all_goals simp [bundleWellFormed, h1, h2, h3] at hw

/-! ### Where the units raise a Fatal -/

/-- Every ALU selector but the reserved one gives a result (R65 to R80). -/
theorem aluOf_ok {op : BitVec 4} (h : op ≠ 15#4) (x y : Word) : ∃ v, aluOf op x y = .ok v := by
  have h1 : op.toNat < 15 := by
    have : op.toNat ≠ 15 := fun e => h (BitVec.eq_of_toNat_eq e)
    omega
  unfold aluOf
  generalize op.toNat = n at h1
  interval_cases n <;> exact ⟨_, rfl⟩

theorem aluOf_reserved (x y : Word) : aluOf 15#4 x y = .error .badAluOp := rfl

/-- The branch selectors 0 to 8 resolve (R91 to R99). -/
theorem takenOf_ok {op : BitVec 4} (h : op.toNat < 9) (x y : Word) : ∃ tk, takenOf op x y = .ok tk := by
  unfold takenOf
  generalize op.toNat = n at h
  interval_cases n <;> exact ⟨_, rfl⟩

/-- The branch selectors 9 to 15 do not (R100). -/
theorem takenOf_reserved {op : BitVec 4} (h : 9 ≤ op.toNat) (x y : Word) : takenOf op x y = .error .badBranchOp := by
  have h1 := op.isLt
  unfold takenOf
  generalize op.toNat = n at h h1
  interval_cases n <;> rfl

/-- A width exists unless func3[1:0] is 3 (R103). -/
theorem widthOf_eq (f : BitVec 3) : widthOf f =
    if f.toNat % 4 = 3 then .error .badMemWidth
    else .ok (if f.toNat % 4 = 0 then .byte else if f.toNat % 4 = 1 then .half else .word) := by
  have key : ∀ g : BitVec 3, g = 0#3 ∨ g = 1#3 ∨ g = 2#3 ∨ g = 3#3 ∨ g = 4#3 ∨ g = 5#3 ∨ g = 6#3 ∨ g = 7#3 := by decide
  rcases key f with rfl | rfl | rfl | rfl | rfl | rfl | rfl | rfl <;> rfl

/-! ### The redirect of a transaction, by its `redirect` output -/

@[simp] theorem afterNone_flush (s : State) (rd : RegIdx) (alu wb : Word) : (s.afterNone rd alu wb).out.flush = (s.afterNone rd alu wb).out.redirect := rfl
@[simp] theorem afterNone_fetchPc (s : State) (rd : RegIdx) (alu wb : Word) :
    (s.afterNone rd alu wb).fetchPc = if (s.afterNone rd alu wb).out.redirect then fallthroughOf s.ports.pc else s.fetchPc := rfl
@[simp] theorem afterNone_fetchStall (s : State) (rd : RegIdx) (alu wb : Word) :
    (s.afterNone rd alu wb).fetchStall = if (s.afterNone rd alu wb).out.redirect then false else s.fetchStall := rfl
@[simp] theorem afterNone_inflight (s : State) (rd : RegIdx) (alu wb : Word) :
    (s.afterNone rd alu wb).inflight = if (s.afterNone rd alu wb).out.redirect then [] else s.inflight := rfl
@[simp] theorem afterNone_modified (s : State) (rd : RegIdx) (alu wb : Word) :
    (s.afterNone rd alu wb).modified = if (s.afterNone rd alu wb).out.redirect then [] else s.modified := rfl

@[simp] theorem afterBranch_flush (s : State) (rd : RegIdx) (wb : Word) (taken may : Bool) (target : Word) : (s.afterBranch rd wb taken may target).out.flush = (s.afterBranch rd wb taken may target).out.redirect := rfl
@[simp] theorem afterBranch_fetchPc (s : State) (rd : RegIdx) (wb : Word) (taken may : Bool) (target : Word) :
    (s.afterBranch rd wb taken may target).fetchPc = if (s.afterBranch rd wb taken may target).out.redirect then if taken then target else fallthroughOf s.ports.pc else s.fetchPc := rfl
@[simp] theorem afterBranch_fetchStall (s : State) (rd : RegIdx) (wb : Word) (taken may : Bool) (target : Word) :
    (s.afterBranch rd wb taken may target).fetchStall = if (s.afterBranch rd wb taken may target).out.redirect then false else s.fetchStall := rfl
@[simp] theorem afterBranch_inflight (s : State) (rd : RegIdx) (wb : Word) (taken may : Bool) (target : Word) :
    (s.afterBranch rd wb taken may target).inflight = if (s.afterBranch rd wb taken may target).out.redirect then [] else s.inflight := rfl
@[simp] theorem afterBranch_modified (s : State) (rd : RegIdx) (wb : Word) (taken may : Bool) (target : Word) :
    (s.afterBranch rd wb taken may target).modified = if (s.afterBranch rd wb taken may target).out.redirect then [] else s.modified := rfl

end Sys2Proof.Machine
end

