-- ==== Sys2Proof/Laws/Instr.lean ====
section
/-! SUPPORT. Every instruction as the transaction of one bundle: the case splits over the opcode table, made once. -/

namespace Sys2Proof.Machine

/-- A native row other than an ill-formed class row is the transaction of its bundle. -/
theorem exec_native {i : Instr} {b : Bundle} (h : nativeBundle i = some b) (hi : isIllegalRow i = false) (s : State) :
    exec i s = execute b s := by
  cases i <;> first
    | (cases hi; done)
    | (cases h; done)
    | (simp only [nativeBundle, Instr.encode, Bundle.unpack_pack, Option.some.injEq] at h; subst h; rfl)

/-- An ill-formed class row is refused for its classes. -/
theorem exec_illegalRow {i : Instr} (hi : isIllegalRow i = true) (s : State) : exec i s = rejectClasses s := by
  cases i <;> first
    | rfl
    | (simp only [isIllegalRow, Bool.false_eq_true] at hi)

theorem destinationOf_native {i : Instr} {b : Bundle} (h : nativeBundle i = some b) : destinationOf i = b.rd := by
  simp only [destinationOf, h]

theorem branchOpOf_native {i : Instr} {b : Bundle} (h : nativeBundle i = some b) : branchOpOf i = b.brOp := by
  cases i <;> first
    | (cases h; done)
    | (simp only [branchOpOf, h])

theorem storeTargetOf_native {i : Instr} {b : Bundle} (h : nativeBundle i = some b) (s : State) :
    storeTargetOf i s = bundleStoreTarget b s := by
  cases i <;> first
    | (cases h; done)
    | (simp only [storeTargetOf, h])

theorem jumpTargetOf_native {i : Instr} {b : Bundle} (h : nativeBundle i = some b) (s : State) :
    jumpTargetOf i s = bundleJumpTarget b s := by
  cases i <;> first
    | (cases h; done)
    | (simp only [jumpTargetOf, h])

/-- A branch or jump bundle's target where its ALU answers `v`. -/
theorem bundleJumpTarget_some {b : Bundle} {s : State} {v : Word} (hb : b.brOp ≠ 0#4) (hv : compute b s.ports = .ok v) :
    bundleJumpTarget b s = some (targetOf b.brOp v) := by
  simp only [bundleJumpTarget, hb, if_false, hv]

/-- A bundle that is no store has no store target. -/
theorem bundleStoreTarget_none {b : Bundle} (h : b.isStore = false) (s : State) : bundleStoreTarget b s = none := by
  simp [bundleStoreTarget, h]

/-- An RV32 row is refused by name, or is the transaction of one bundle with operand values on the ports. -/
theorem exec_word {i : Instr} (h : nativeBundle i = none) (s : State) :
    (∃ n, ∀ t, exec i t = .refused (.noBundle n)) ∨
      ∃ b v1 v2, exec i s = execute b (s.withOperands v1 v2) ∧ b.rd = destinationOf i ∧ b.brOp = branchOpOf i ∧
        bundleStoreTarget b (s.withOperands v1 v2) = storeTargetOf i s ∧
        bundleJumpTarget b (s.withOperands v1 v2) = jumpTargetOf i s := by
  cases i <;> first
    | (cases h; done)
    | exact .inl ⟨_, fun _ => rfl⟩
    | exact .inr ⟨_, _, _, rfl, rfl, rfl, rfl, rfl⟩

/-- An instruction that R58 gives no bundle is refused in every state. -/
theorem exec_refusedRow {i : Instr} (h : isRefusedRow i = true) : ∃ n, ∀ t, exec i t = .refused (.noBundle n) := by
  cases i <;> first
    | (cases h; done)
    | exact ⟨_, fun _ => rfl⟩

/-- Any other RV32 row is the transaction of one bundle with operand values on the ports. -/
theorem exec_word_runs {i : Instr} (h : nativeBundle i = none) (hr : isRefusedRow i = false) (s : State) :
    ∃ b v1 v2, exec i s = execute b (s.withOperands v1 v2) := by
  cases i <;> first
    | (cases h; done)
    | (cases hr; done)
    | exact ⟨_, _, _, rfl⟩

/-- Putting the operand values that already stand there on the ports changes nothing. -/
@[simp] theorem withOperands_self (s : State) : s.withOperands s.ports.rs1Value s.ports.rs2Value = s := rfl

/-- An instruction that answers a next state is the transaction of one bundle, whose `rd`, `br_op`, store target and jump target are
its own. -/
theorem exec_next {i : Instr} {s t : State} (h : exec i s = .next t) :
    ∃ b v1 v2, execute b (s.withOperands v1 v2) = .next t ∧ b.rd = destinationOf i ∧ b.brOp = branchOpOf i ∧
      bundleStoreTarget b (s.withOperands v1 v2) = storeTargetOf i s ∧
      bundleJumpTarget b (s.withOperands v1 v2) = jumpTargetOf i s := by
  cases hn : nativeBundle i with
  | none =>
    rcases exec_word hn s with ⟨n, hr⟩ | ⟨b, v1, v2, he, hd, hb, hs, hj⟩
    · rw [hr s] at h; cases h
    · exact ⟨b, v1, v2, he ▸ h, hd, hb, hs, hj⟩
  | some b =>
    cases hi : isIllegalRow i with
    | true =>
      rw [exec_illegalRow hi, rejectClasses] at h
      split at h <;> cases h
    | false =>
      refine ⟨b, s.ports.rs1Value, s.ports.rs2Value, ?_, (destinationOf_native hn).symm, (branchOpOf_native hn).symm, ?_, ?_⟩
      · rw [withOperands_self, ← exec_native hn hi, h]
      · rw [withOperands_self, storeTargetOf_native hn]
      · rw [withOperands_self, jumpTargetOf_native hn]

/-- Everything an instruction that answers a next state can have done. -/
theorem exec_cases {i : Instr} {s t : State} (h : exec i s = .next t) :
    ∃ v1 v2 v, s.fatal = false ∧
      ((branchOpOf i = 0#4 ∧ storeTargetOf i s = none ∧ ∃ wb, t = (s.withOperands v1 v2).afterNone (destinationOf i) v wb) ∨
        (branchOpOf i = 0#4 ∧ ∃ w, storeTargetOf i s = some (v, w) ∧
          t = ((s.withOperands v1 v2).storeTo v w v2).afterNone (destinationOf i) v v) ∨
        (branchOpOf i ≠ 0#4 ∧ storeTargetOf i s = none ∧ jumpTargetOf i s = some (targetOf (branchOpOf i) v) ∧
          ∃ tk, takenOf (branchOpOf i) v1 v2 = .ok tk ∧ t = (s.withOperands v1 v2).afterBranch (destinationOf i)
            (if branchOpOf i = 1#4 ∨ branchOpOf i = 2#4 then fallthroughOf s.ports.pc else v) tk (mayRedirect (branchOpOf i))
            (targetOf (branchOpOf i) v))) := by
  obtain ⟨b, v1, v2, he, hd, hb, hs, hj⟩ := exec_next h
  obtain ⟨hf, v, hv, hc⟩ := execute_next he
  refine ⟨v1, v2, v, hf, ?_⟩
  rw [← hd, ← hb, ← hs, ← hj]
  rcases hc with ⟨hn, h0, rfl⟩ | ⟨hn, h0, tk, ht, rfl⟩ | ⟨h1, h2, h0, wb, _, rfl⟩ | ⟨h1, h0, w, hw, rfl⟩ | ⟨_, h2, h0, old, _, rfl⟩
  · exact .inl ⟨h0, bundleStoreTarget_none ((noClass_iff b).mp hn).2.1 _, v, rfl⟩
  · exact .inr (.inr ⟨h0, bundleStoreTarget_none ((noClass_iff b).mp hn).2.1 _, bundleJumpTarget_some h0 hv, tk, ht, rfl⟩)
  · exact .inl ⟨h0, bundleStoreTarget_none h2 _, wb, rfl⟩
  · exact .inr (.inl ⟨h0, w, by simp only [bundleStoreTarget, h1, if_true, hv, hw], rfl⟩)
  · exact .inl ⟨h0, bundleStoreTarget_none h2 _, old, rfl⟩

end Sys2Proof.Machine
end

