-- ==== Sys2Proof/Laws/Sparse.lean ====
section
/-! SUPPORT. The laws of the canonical finite maps: read after write, and that a write keeps the canonical form. -/

namespace Sys2Proof.Machine

variable {β : Type}

@[simp] theorem Sparse.get_nil (d : β) (k : Nat) : Sparse.get d k [] = d := rfl

theorem Sparse.get_erase_same (d : β) (k : Nat) (m : List (Nat × β)) : Sparse.get d k (Sparse.erase k m) = d := by
  induction m with
  | nil => rfl
  | cons c m ih => by_cases h : c.1 = k <;> simp [Sparse.erase, Sparse.get, h, ih]

theorem Sparse.get_erase_other (d : β) {k j : Nat} (m : List (Nat × β)) (h : j ≠ k) :
    Sparse.get d j (Sparse.erase k m) = Sparse.get d j m := by
  induction m with
  | nil => rfl
  | cons c m ih =>
    by_cases hk : c.1 = k
    · have hj : c.1 ≠ j := by omega
      simp only [Sparse.erase, if_pos hk, Sparse.get, if_neg hj, ih]
    · simp only [Sparse.erase, if_neg hk, Sparse.get, ih]

theorem Sparse.get_insert_same (d : β) (k : Nat) (v : β) (m : List (Nat × β)) (h : ∀ c ∈ m, c.1 ≠ k) :
    Sparse.get d k (Sparse.insert k v m) = v := by
  induction m with
  | nil => simp [Sparse.insert, Sparse.get]
  | cons c m ih =>
    have hc := h c (by simp)
    have := ih (fun c hm => h c (by simp [hm]))
    by_cases hk : k < c.1 <;> simp [Sparse.insert, Sparse.get, hk, hc, this]

theorem Sparse.get_insert_other (d : β) {k j : Nat} (v : β) (m : List (Nat × β)) (h : j ≠ k) :
    Sparse.get d j (Sparse.insert k v m) = Sparse.get d j m := by
  induction m with
  | nil => simp [Sparse.insert, Sparse.get, Ne.symm h]
  | cons c m ih =>
    by_cases hk : k < c.1
    · simp [Sparse.insert, Sparse.get, hk, Ne.symm h]
    · simp only [Sparse.insert, if_neg hk, Sparse.get, ih]

theorem Sparse.key_ne_of_mem_erase {k : Nat} {m : List (Nat × β)} {c : Nat × β} (h : c ∈ Sparse.erase k m) : c.1 ≠ k := by
  induction m with
  | nil => simp [Sparse.erase] at h
  | cons e m ih =>
    by_cases hk : e.1 = k
    · simp only [Sparse.erase, hk, if_true] at h
      exact ih h
    · simp only [Sparse.erase, hk, if_false, List.mem_cons] at h
      rcases h with rfl | h
      · exact hk
      · exact ih h

theorem Sparse.mem_erase {k : Nat} {m : List (Nat × β)} {c : Nat × β} (h : c ∈ Sparse.erase k m) : c ∈ m := by
  induction m with
  | nil => simp [Sparse.erase] at h
  | cons e m ih =>
    by_cases hk : e.1 = k
    · simp only [Sparse.erase, hk, if_true] at h; exact List.mem_cons_of_mem _ (ih h)
    · simp only [Sparse.erase, hk, if_false, List.mem_cons] at h ⊢
      exact h.imp_right ih

theorem Sparse.mem_insert {k : Nat} {v : β} {m : List (Nat × β)} {c : Nat × β} (h : c ∈ Sparse.insert k v m) :
    c = (k, v) ∨ c ∈ m := by
  induction m with
  | nil => simpa [Sparse.insert] using h
  | cons e m ih =>
    by_cases hk : k < e.1
    · simpa [Sparse.insert, hk] using h
    · simp only [Sparse.insert, hk, if_false, List.mem_cons] at h ⊢
      rcases h with h | h
      · exact .inr (.inl h)
      · exact (ih h).imp_right .inr

variable [DecidableEq β]

/-- A written key reads as the value written. -/
@[simp] theorem Sparse.get_set_same (d : β) (k : Nat) (v : β) (m : List (Nat × β)) :
    Sparse.get d k (Sparse.set d k v m) = v := by
  by_cases h : v = d
  · subst h; simp [Sparse.set, Sparse.get_erase_same]
  · simp only [Sparse.set, h, if_false]
    exact Sparse.get_insert_same d k v _ (fun c hc => Sparse.key_ne_of_mem_erase hc)

/-- Every other key reads as before. -/
theorem Sparse.get_set_other (d : β) {k j : Nat} (v : β) (m : List (Nat × β)) (h : j ≠ k) :
    Sparse.get d j (Sparse.set d k v m) = Sparse.get d j m := by
  by_cases hv : v = d <;> simp [Sparse.set, hv, Sparse.get_erase_other, Sparse.get_insert_other, h]

theorem Sparse.get_set (d : β) (k j : Nat) (v : β) (m : List (Nat × β)) :
    Sparse.get d j (Sparse.set d k v m) = if j = k then v else Sparse.get d j m := by
  by_cases h : j = k
  · subst h; simp
  · simp [h, Sparse.get_set_other]

/-! ### The canonical form -/

theorem Sparse.wfFrom_le {d : β} {n lo lo' : Nat} {m : List (Nat × β)} (hl : lo' ≤ lo) (h : Sparse.wfFrom d n lo m = true) :
    Sparse.wfFrom d n lo' m = true := by
  cases m with
  | nil => rfl
  | cons c m =>
    simp only [Sparse.wfFrom, Bool.and_eq_true, decide_eq_true_eq] at h ⊢
    exact ⟨⟨⟨by omega, h.1.1.2⟩, h.1.2⟩, h.2⟩

theorem Sparse.wfFrom_erase {d : β} {n lo : Nat} (k : Nat) {m : List (Nat × β)} (h : Sparse.wfFrom d n lo m = true) :
    Sparse.wfFrom d n lo (Sparse.erase k m) = true := by
  induction m generalizing lo with
  | nil => rfl
  | cons c m ih =>
    have h' := h
    simp only [Sparse.wfFrom, Bool.and_eq_true, decide_eq_true_eq] at h'
    by_cases hk : c.1 = k
    · simp only [Sparse.erase, hk, if_true]
      exact ih (Sparse.wfFrom_le (by omega) h'.2)
    · simp only [Sparse.erase, hk, if_false, Sparse.wfFrom, Bool.and_eq_true, decide_eq_true_eq]
      exact ⟨h'.1, ih h'.2⟩

theorem Sparse.wfFrom_insert {d : β} {n lo k : Nat} {v : β} {m : List (Nat × β)} (h : Sparse.wfFrom d n lo m = true)
    (hlo : lo ≤ k) (hk : k < n) (hv : v ≠ d) (hne : ∀ c ∈ m, c.1 ≠ k) :
    Sparse.wfFrom d n lo (Sparse.insert k v m) = true := by
  induction m generalizing lo with
  | nil => simp [Sparse.insert, Sparse.wfFrom, hlo, hk, hv]
  | cons c m ih =>
    have h' := h
    simp only [Sparse.wfFrom, Bool.and_eq_true, decide_eq_true_eq] at h'
    have hc := hne c (by simp)
    by_cases hlt : k < c.1
    · simp only [Sparse.insert, hlt, if_true, Sparse.wfFrom, Bool.and_eq_true, decide_eq_true_eq]
      exact ⟨⟨⟨hlo, hk⟩, hv⟩, ⟨⟨by omega, h'.1.1.2⟩, h'.1.2⟩, h'.2⟩
    · simp only [Sparse.insert, hlt, if_false, Sparse.wfFrom, Bool.and_eq_true, decide_eq_true_eq]
      exact ⟨h'.1, ih h'.2 (by omega) (fun e he => hne e (by simp [he]))⟩

/-- A write of a key below the bound keeps the canonical form. -/
theorem Sparse.wf_set {d : β} {n k : Nat} {v : β} {m : List (Nat × β)} (h : Sparse.wf d n m = true) (hk : k < n) :
    Sparse.wf d n (Sparse.set d k v m) = true := by
  by_cases hv : v = d
  · simp only [Sparse.set, hv, if_true]; exact Sparse.wfFrom_erase k h
  · simp only [Sparse.set, hv, if_false]
    exact Sparse.wfFrom_insert (Sparse.wfFrom_erase k h) (Nat.zero_le k) hk hv (fun c hc => Sparse.key_ne_of_mem_erase hc)

/-- An entry after a write is the one written or was there before. -/
theorem Sparse.mem_set {d : β} {k : Nat} {v : β} {m : List (Nat × β)} {c : Nat × β} (h : c ∈ Sparse.set d k v m) :
    c = (k, v) ∨ c ∈ m := by
  by_cases hv : v = d
  · simp only [Sparse.set, hv, if_true] at h; exact .inr (Sparse.mem_erase h)
  · simp only [Sparse.set, hv, if_false] at h
    exact (Sparse.mem_insert h).imp_right Sparse.mem_erase

end Sys2Proof.Machine
end

