-- ==== Sys2Proof/Laws/Memory.lean ====
section
/-! SUPPORT. The laws of memory: read after write, byte order, what an access covers, and that every memory operation keeps the
canonical form. -/

namespace Sys2Proof.Machine

/-! ### One byte -/

/-- Reading a byte after a write of a byte. -/
theorem readByte_writeByte (m : Memory) (a x : Word) (v : Byte) :
    readByte (writeByte m a v) x = if x = a then v else readByte m x := by
  simp only [readByte, writeByte, Sparse.get_set, BitVec.toNat_inj]

@[simp] theorem readByte_writeByte_same (m : Memory) (a : Word) (v : Byte) : readByte (writeByte m a v) a = v := by
  simp [readByte_writeByte]

theorem readByte_writeByte_other (m : Memory) {a x : Word} (v : Byte) (h : x ≠ a) :
    readByte (writeByte m a v) x = readByte m x := by simp [readByte_writeByte, h]

/-! ### Accesses -/

/-- The offsets of an access are distinct addresses. -/
theorem add_ofNat_inj {a : Word} {i j : Nat} (hi : i < 4) (hj : j < 4) :
    a + BitVec.ofNat 32 i = a + BitVec.ofNat 32 j ↔ i = j := by
  constructor
  · intro h
    have := congrArg BitVec.toNat (add_left_cancel h)
    simp only [BitVec.toNat_ofNat] at this
    omega
  · rintro rfl; rfl

/-- An address is in an access exactly where it is the start plus an offset below the width. -/
theorem inAccess_iff (a x : Word) (w : Width) : inAccess a w x = true ↔ ∃ k, k < w.bytes ∧ x = a + BitVec.ofNat 32 k := by
  simp only [inAccess, decide_eq_true_eq]
  constructor
  · intro h
    refine ⟨(x - a).toNat, h, ?_⟩
    rw [BitVec.ofNat_toNat, BitVec.setWidth_eq, BitVec.add_comm, BitVec.sub_add_cancel]
  · rintro ⟨k, hk, rfl⟩
    have : w.bytes ≤ 4 := by cases w <;> decide
    have : a + BitVec.ofNat 32 k - a = BitVec.ofNat 32 k := by simp
    rw [this, BitVec.toNat_ofNat]
    omega

/-- Reading a byte after a byte store. -/
theorem readByte_memWrite_byte (m : Memory) (a x v : Word) :
    readByte (memWrite m a .byte v) x = if x = a then v.extractLsb' 0 8 else readByte m x := by
  simp only [memWrite, bytesOf, writeBytes, readByte_writeByte]

theorem addr_add_add (a : Word) : a + 1#32 + 1#32 = a + 2#32 ∧ a + 1#32 + 1#32 + 1#32 = a + 3#32 := by
  constructor <;> simp [BitVec.add_assoc]

/-- Reading a byte after a halfword store. -/
theorem readByte_memWrite_half (m : Memory) (a x v : Word) :
    readByte (memWrite m a .half v) x =
      if x = a then v.extractLsb' 0 8 else if x = a + 1#32 then v.extractLsb' 8 8 else readByte m x := by
  simp only [memWrite, bytesOf, writeBytes, readByte_writeByte]
  by_cases h0 : x = a
  · subst h0; simp
  · simp [h0]

/-- Reading a byte after a word store. -/
theorem readByte_memWrite_word (m : Memory) (a x v : Word) :
    readByte (memWrite m a .word v) x =
      if x = a then v.extractLsb' 0 8 else if x = a + 1#32 then v.extractLsb' 8 8
      else if x = a + 2#32 then v.extractLsb' 16 8 else if x = a + 3#32 then v.extractLsb' 24 8 else readByte m x := by
  obtain ⟨e2, e3⟩ := addr_add_add a
  simp only [memWrite, bytesOf, writeBytes, readByte_writeByte, e2, show a + 2#32 + 1#32 = a + 3#32 by rw [← e2]; exact e3]
  have d01 : a ≠ a + 1#32 := by simp
  have d02 : a ≠ a + 2#32 := by simp
  have d03 : a ≠ a + 3#32 := by simp
  have d12 : a + 1#32 ≠ a + 2#32 := by simp
  have d13 : a + 1#32 ≠ a + 3#32 := by simp
  have d23 : a + 2#32 ≠ a + 3#32 := by simp
  by_cases h0 : x = a
  · subst h0; simp
  by_cases h1 : x = a + 1#32
  · subst h1; simp
  by_cases h2 : x = a + 2#32
  · subst h2; simp
  · simp [h0, h1, h2]

/-- A store leaves every byte outside its access as it reads. -/
theorem readByte_memWrite_outside (m : Memory) (a x v : Word) (w : Width) (h : inAccess a w x = false) :
    readByte (memWrite m a w v) x = readByte m x := by
  have hk : ∀ k, k < w.bytes → x ≠ a + BitVec.ofNat 32 k := by
    intro k hk e
    rw [(inAccess_iff a x w).mpr ⟨k, hk, e⟩] at h
    cases h
  cases w with
  | byte => rw [readByte_memWrite_byte, if_neg (by simpa using hk 0 (by decide))]
  | half =>
    rw [readByte_memWrite_half, if_neg (by simpa using hk 0 (by decide)), if_neg (hk 1 (by decide))]
  | word =>
    rw [readByte_memWrite_word, if_neg (by simpa using hk 0 (by decide)), if_neg (hk 1 (by decide)),
      if_neg (hk 2 (by decide)), if_neg (hk 3 (by decide))]

/-! ### Reading by widths -/

theorem memRead_byte (m : Memory) (a : Word) : memRead m a .byte = (readByte m a).setWidth 32 := by
  apply BitVec.eq_of_toNat_eq; simp [memRead]

theorem memRead_half (m : Memory) (a : Word) : memRead m a .half = (readByte m (a + 1#32) ++ readByte m a).setWidth 32 := by
  apply BitVec.eq_of_toNat_eq
  have h0 := (readByte m a).isLt; have h1 := (readByte m (a + 1#32)).isLt
  simp only [memRead, BitVec.toNat_ofNat, BitVec.toNat_setWidth, BitVec.toNat_append,
    Nat.shiftLeft_eq, ← Nat.mul_comm (2 ^ 8), ← Nat.two_pow_add_eq_or_of_lt h0]
  omega

theorem memRead_word (m : Memory) (a : Word) :
    memRead m a .word = readByte m (a + 3#32) ++ readByte m (a + 2#32) ++ readByte m (a + 1#32) ++ readByte m a := by
  apply BitVec.eq_of_toNat_eq
  have h0 := (readByte m a).isLt; have h1 := (readByte m (a + 1#32)).isLt
  have h2 := (readByte m (a + 2#32)).isLt; have h3 := (readByte m (a + 3#32)).isLt
  simp only [memRead, BitVec.toNat_ofNat, BitVec.toNat_append,
    Nat.shiftLeft_eq, ← Nat.mul_comm (2 ^ 8), ← Nat.two_pow_add_eq_or_of_lt h0, ← Nat.two_pow_add_eq_or_of_lt h1,
    ← Nat.two_pow_add_eq_or_of_lt h2]
  omega

/-- The bytes and halfwords of a word put together from four bytes. -/
theorem extract_append (b3 b2 b1 b0 : Byte) :
    (b3 ++ b2 ++ b1 ++ b0).extractLsb' 0 8 = b0 ∧ (b3 ++ b2 ++ b1 ++ b0).extractLsb' 8 8 = b1 ∧
      (b3 ++ b2 ++ b1 ++ b0).extractLsb' 16 8 = b2 ∧ (b3 ++ b2 ++ b1 ++ b0).extractLsb' 24 8 = b3 ∧
      (b3 ++ b2 ++ b1 ++ b0).extractLsb' 0 16 = b1 ++ b0 ∧ (b3 ++ b2 ++ b1 ++ b0).extractLsb' 16 16 = b3 ++ b2 := by
  have h0 := b0.isLt; have h1 := b1.isLt; have h2 := b2.isLt; have h3 := b3.isLt
  refine ⟨?_, ?_, ?_, ?_, ?_, ?_⟩ <;> apply BitVec.eq_of_toNat_eq
  all_goals
    simp only [BitVec.extractLsb'_toNat, BitVec.toNat_append, Nat.shiftLeft_eq, Nat.shiftRight_eq_div_pow,
      ← Nat.mul_comm (2 ^ 8), ← Nat.two_pow_add_eq_or_of_lt h0, ← Nat.two_pow_add_eq_or_of_lt h1,
      ← Nat.two_pow_add_eq_or_of_lt h2]
    omega

/-- A word is its four bytes put together. -/
theorem append_extract (v : Word) :
    v.extractLsb' 24 8 ++ v.extractLsb' 16 8 ++ v.extractLsb' 8 8 ++ v.extractLsb' 0 8 = v := by
  have hv := v.isLt
  apply BitVec.eq_of_toNat_eq
  have h : ∀ k, v.toNat / 2 ^ k % 2 ^ 8 < 2 ^ 8 := fun k => Nat.mod_lt _ (by decide)
  simp only [BitVec.extractLsb'_toNat, BitVec.toNat_append, Nat.shiftLeft_eq, Nat.shiftRight_eq_div_pow,
    ← Nat.mul_comm (2 ^ 8), ← Nat.two_pow_add_eq_or_of_lt (h _)]
  omega

/-! ### The canonical form -/

theorem writeByte_wf {m : Memory} (a : Word) (v : Byte) (h : Memory.wf m = true) : Memory.wf (writeByte m a v) = true :=
  Sparse.wf_set h a.isLt

theorem writeBytes_wf {m : Memory} (a : Word) (vs : List Byte) (h : Memory.wf m = true) :
    Memory.wf (writeBytes m a vs) = true := by
  induction vs generalizing m a with
  | nil => exact h
  | cons v vs ih => exact ih _ (writeByte_wf a v h)

/-- A store keeps the canonical form. -/
theorem memWrite_wf {m : Memory} (a : Word) (w : Width) (v : Word) (h : Memory.wf m = true) :
    Memory.wf (memWrite m a w v) = true := writeBytes_wf a _ h

theorem storeTo_mem_wf {s : State} (a : Word) (w : Width) (v : Word) (h : Memory.wf s.mem = true) :
    Memory.wf (s.storeTo a w v).mem = true := by
  simp only [State.storeTo]
  split
  · exact h
  · exact memWrite_wf a w v h

/-- Placing a word keeps both memories' canonical forms. -/
theorem placeWord_wf {s : State} (a : Word) (w : BitVec 32) (h : Memory.wf s.mem = true) (hi : Memory.wf s.imem = true) :
    Memory.wf (s.placeWord a w).mem = true ∧ Memory.wf (s.placeWord a w).imem = true := by
  simp only [State.placeWord]
  cases s.cfg.instrSpace
  · exact ⟨writeBytes_wf a _ h, hi⟩
  · exact ⟨h, writeBytes_wf a _ hi⟩

/-- Reset's memories have the form. -/
theorem reset_memories_wf : Memory.wf State.reset.mem = true ∧ Memory.wf State.reset.imem = true := ⟨rfl, rfl⟩

/-! ### The marks of a store -/

theorem markModified_wf {md : List (Nat × Bool)} (a : Word) (vs : List Byte) (h : Sparse.wf false (2 ^ 32) md = true) :
    Sparse.wf false (2 ^ 32) (markModified md a vs) = true := by
  induction vs generalizing md a with
  | nil => exact h
  | cons v vs ih => exact ih _ (Sparse.wf_set h a.isLt)

/-- A mark once made stays. -/
theorem markModified_keeps {md : List (Nat × Bool)} (a : Word) (vs : List Byte) {k : Nat} (h : Sparse.get false k md = true) :
    Sparse.get false k (markModified md a vs) = true := by
  induction vs generalizing md a with
  | nil => exact h
  | cons v vs ih =>
    apply ih
    rw [Sparse.get_set]
    split
    · rfl
    · exact h

/-- Every address of a store is marked. -/
theorem markModified_marks {md : List (Nat × Bool)} (a x v : Word) (w : Width) (h : inAccess a w x = true) :
    Sparse.get false x.toNat (markModified md a (bytesOf v w)) = true := by
  obtain ⟨k, hk, rfl⟩ := (inAccess_iff a x w).mp h
  have go : ∀ (vs : List Byte) (md : List (Nat × Bool)) (a : Word) (k : Nat), k < vs.length →
      Sparse.get false (a + BitVec.ofNat 32 k).toNat (markModified md a vs) = true := by
    intro vs
    induction vs with
    | nil => intro md a k hk; cases hk
    | cons v vs ih =>
      intro md a k hk
      cases k with
      | zero =>
        simp only [markModified]
        exact markModified_keeps _ _ (by simp)
      | succ k =>
        have e : a + BitVec.ofNat 32 (k + 1) = a + 1#32 + BitVec.ofNat 32 k := by
          rw [BitVec.add_assoc]; congr 1
          apply BitVec.eq_of_toNat_eq; simp [BitVec.toNat_add, Nat.add_comm]
        rw [e]
        exact ih _ _ k (by simpa using hk)
  exact go _ _ _ _ (by cases w <;> simpa [bytesOf, Width.bytes] using hk)

end Sys2Proof.Machine
end

