-- ==== Sys2Proof/Laws/Predictor.lean ====
section
/-! SUPPORT. The predictor's index, tag and history arithmetic over the naturals, and that an Update keeps the tables' form. -/

namespace Sys2Proof.Machine

/-- What R9's bounds say of the two table sizes. -/
theorem Config.wf_bounds {c : Config} (h : c.wf = true) :
    1 ≤ c.histBits ∧ c.histBits ≤ 30 ∧ 1 ≤ c.btbIndexBits ∧ c.btbIndexBits ≤ 29 := by
  simp only [Config.wf, Bool.and_eq_true, decide_eq_true_eq] at h
  omega

/-- The mask of `n` low bits. -/
theorem maskOf_toNat {n : Nat} (h : n ≤ 32) : (maskOf n).toNat = 2 ^ n - 1 := by
  have h2 : 2 ^ n ≤ 2 ^ 32 := Nat.pow_le_pow_right (by omega) h
  have h1 : 0 < 2 ^ n := Nat.two_pow_pos n
  rw [maskOf, BitVec.toNat_ofNat, Nat.mod_eq_of_lt (by omega)]

/-- Masking keeps the value modulo 2^n. -/
theorem and_maskOf_toNat {n : Nat} (h : n ≤ 32) (x : Word) : (x &&& maskOf n).toNat = x.toNat % 2 ^ n := by
  rw [BitVec.toNat_and, maskOf_toNat h, Nat.and_two_pow_sub_one_eq_mod]

/-- The word part of a pc. -/
theorem shiftTwo_toNat (pc : Word) : (pc >>> 2).toNat = pc.toNat / 4 := by
  rw [BitVec.toNat_ushiftRight, Nat.shiftRight_eq_div_pow]

theorem bhtIndex_toNat {c : Config} (h : c.wf = true) (pc bhr : Word) :
    (bhtIndex c pc bhr).toNat = (pc.toNat / 4 ^^^ bhr.toNat) % 2 ^ c.histBits := by
  have := Config.wf_bounds h
  rw [bhtIndex, and_maskOf_toNat (by omega), BitVec.toNat_xor, shiftTwo_toNat]

theorem btbIndex_toNat {c : Config} (h : c.wf = true) (pc : Word) :
    (btbIndex c pc).toNat = pc.toNat / 4 % 2 ^ c.btbIndexBits := by
  have := Config.wf_bounds h
  rw [btbIndex, and_maskOf_toNat (by omega), shiftTwo_toNat]

theorem btbTag_toNat (c : Config) (pc : Word) : (btbTag c pc).toNat = pc.toNat / 2 ^ (c.btbIndexBits + 2) := by
  rw [btbTag, BitVec.toNat_ushiftRight, Nat.shiftRight_eq_div_pow]

/-- A tag fits its TAG_BITS = 30 - B bits. -/
theorem btbTag_lt {c : Config} (h : c.wf = true) (pc : Word) : (btbTag c pc).toNat < 2 ^ (30 - c.btbIndexBits) := by
  have := Config.wf_bounds h
  rw [btbTag_toNat, Nat.div_lt_iff_lt_mul (Nat.two_pow_pos _), ← Nat.pow_add,
    show 30 - c.btbIndexBits + (c.btbIndexBits + 2) = 32 by omega]
  exact pc.isLt

theorem btbInstallIndex_toNat {c : Config} (h : c.wf = true) (pc bhr : Word) :
    (btbInstallIndex c pc bhr).toNat =
      match c.btbInstall with
      | .xorHistory => (pc.toNat / 4 ^^^ bhr.toNat) % 2 ^ c.btbIndexBits
      | .pcOnly => pc.toNat / 4 % 2 ^ c.btbIndexBits := by
  have := Config.wf_bounds h
  rw [btbInstallIndex]
  cases c.btbInstall
  · rw [and_maskOf_toNat (by omega), BitVec.toNat_xor, shiftTwo_toNat]
  · rw [and_maskOf_toNat (by omega), shiftTwo_toNat]

/-- A step of a saturating counter. -/
theorem saturate_toNat (c : SatCounter) (taken : Bool) :
    (saturate c taken).toNat = if taken then min 3 (c.toNat + 1) else c.toNat - 1 := by
  revert c taken; decide

/-- The history after one more outcome. -/
theorem shiftIn_toNat {n : Nat} (h : n ≤ 32) (x : Word) (taken : Bool) :
    (((x <<< 1) ||| BitVec.ofNat 32 taken.toNat) &&& maskOf n).toNat = (2 * x.toNat + taken.toNat) % 2 ^ n := by
  have hd : (2 : Nat) ^ n ∣ 2 ^ 32 := Nat.pow_dvd_pow 2 h
  have e : ((x <<< 1) ||| BitVec.ofNat 32 taken.toNat).toNat = (2 * x.toNat + taken.toNat) % 2 ^ 32 := by
    have h1 : x.toNat <<< 1 % 2 ^ 32 = 2 ^ 1 * (x.toNat % 2 ^ 31) := by rw [Nat.shiftLeft_eq]; omega
    have h2 : (BitVec.ofNat 32 taken.toNat).toNat = taken.toNat := by cases taken <;> rfl
    have h3 : taken.toNat < 2 ^ 1 := by cases taken <;> decide
    rw [BitVec.toNat_or, BitVec.toNat_shiftLeft, h1, h2, ← Nat.two_pow_add_eq_or_of_lt h3]
    omega
  rw [and_maskOf_toNat h, e, Nat.mod_mod_of_dvd _ hd]

/-- The parts of an Update under GSHARE. -/
theorem update_gshare {s : State} (h : s.cfg.predictor = .gshare) (pc n : Word) (taken : Bool) :
    s.update true pc n taken = { s with
      bht := Sparse.set s.cfg.bhtInit (bhtIndex s.cfg pc s.bhr).toNat (saturate (s.readBht (bhtIndex s.cfg pc s.bhr)) taken) s.bht
      btb := if taken then
          Sparse.set BtbEntry.empty (btbInstallIndex s.cfg pc s.bhr).toNat { valid := true, tag := btbTag s.cfg pc, target := n } s.btb
        else s.btb
      bhr := ((s.bhr <<< 1) ||| BitVec.ofNat 32 taken.toNat) &&& maskOf s.cfg.histBits } := by
  simp [State.update, h]

/-- Without the call, or under FALLTHROUGH, nothing is updated. -/
theorem update_none {s : State} {u : Bool} (h : u = false ∨ s.cfg.predictor = .fallthrough) (pc n : Word) (taken : Bool) :
    s.update u pc n taken = s := by
  have hf : (PredictorKind.fallthrough == PredictorKind.gshare) = false := rfl
  rcases h with h | h <;> simp [State.update, h, hf]

/-- An Update keeps the predictor's tables in form. -/
theorem update_predictorOk {s : State} (hc : s.cfg.wf = true) (h : s.predictorOk = true) (u : Bool) (pc n : Word) (taken : Bool) :
    (s.update u pc n taken).predictorOk = true := by
  have hb := Config.wf_bounds hc
  by_cases hu : u = true ∧ s.cfg.predictor = .gshare
  · obtain ⟨rfl, hg⟩ := hu
    rw [update_gshare hg]
    simp only [State.predictorOk, Bool.and_eq_true, decide_eq_true_eq] at h ⊢
    obtain ⟨⟨⟨h1, h2⟩, h3⟩, _⟩ := h
    have hi : (btbInstallIndex s.cfg pc s.bhr).toNat < 2 ^ s.cfg.btbIndexBits := by
      rw [btbInstallIndex_toNat hc]
      cases s.cfg.btbInstall <;> exact Nat.mod_lt _ (Nat.two_pow_pos _)
    refine ⟨⟨⟨?_, ?_⟩, ?_⟩, ?_⟩
    · cases taken
      · exact h1
      · rw [if_pos rfl]
        exact Sparse.wf_set h1 hi
    · cases taken
      · exact h2
      · simp only [btbTagsFit, List.all_eq_true, decide_eq_true_eq, if_true] at h2 ⊢
        intro e he
        rcases Sparse.mem_set he with rfl | he
        · exact btbTag_lt hc pc
        · exact h2 e he
    · refine Sparse.wf_set h3 ?_
      rw [bhtIndex_toNat hc]
      exact Nat.mod_lt _ (Nat.two_pow_pos _)
    · rw [shiftIn_toNat (by omega)]
      exact Nat.mod_lt _ (Nat.two_pow_pos _)
  · rw [update_none]
    · exact h
    · rcases Bool.eq_false_or_eq_true u with hu' | hu'
      · right
        cases hp : s.cfg.predictor
        · exact absurd ⟨hu', hp⟩ hu
        · rfl
      · exact .inl hu'

end Sys2Proof.Machine
end

