-- ==== Sys2Proof/Laws/Step.lean ====
section
/-! SUPPORT. What fetch, an issue and a step can do when they answer a next state, and the invariant under each. -/

namespace Sys2Proof.Machine

/-- A word boundary, in numbers. -/
theorem aligned4_iff (a : Word) : aligned4 a = true ↔ a.toNat % 4 = 0 := by
  rw [aligned4, beq_iff_eq, ← BitVec.toNat_inj]
  simp

/-- An opcode field, in numbers. -/
theorem opcodeOf_iff (w : BitVec 32) {k : Nat} (hk : k < 128) : opcodeOf w = BitVec.ofNat 7 k ↔ w.toNat % 128 = k := by
  rw [opcodeOf, ← BitVec.toNat_inj]
  simp
  omega

/-- Which addresses count as modified depends on the set alone. -/
theorem isModified_congr {s t : State} (h : t.modified = s.modified) (pc : Word) : t.isModified pc = s.isModified pc := by
  simp [State.isModified, h]

/-- One modified byte among the four suffices. -/
theorem isModified_of_byte {s : State} {pc : Word} {k : Nat} (hk : k < 4)
    (h : Sparse.get false (pc + BitVec.ofNat 32 k).toNat s.modified = true) : s.isModified pc = true := by
  have hk' : k = 0 ∨ k = 1 ∨ k = 2 ∨ k = 3 := by omega
  simp only [State.isModified, Bool.or_eq_true]
  rcases hk' with rfl | rfl | rfl | rfl <;> simp_all

/-- The instruction executed next, after a transaction that redirects or does not. -/
theorem nextFetched_after {s t : State} {mis : Bool} {n : Word} (hp : t.fetchPc = if mis then n else s.fetchPc)
    (hi : t.inflight = if mis then [] else s.inflight) : t.nextFetched = if mis then n else s.nextFetched := by
  cases mis <;> simp_all [State.nextFetched]

/-- What a fetch can do. -/
theorem tryFetch_next {item : Fetched} {src : OperandSource} {s t : State} (h : s.tryFetch item src = .next t) :
    (s.fetchStall = true ∧ t = s) ∨ (s.fetchStall = false ∧ aligned4 s.fetchPc = true ∧ t = s.fetchItem item src) := by
  simp only [State.tryFetch] at h
  split at h
  · injection h with h; exact .inl ⟨‹_›, h.symm⟩
  · split at h
    · injection h with h; exact .inr ⟨by simp_all, ‹_›, h.symm⟩
    · cases h

/-- What the execution of an in-flight instruction can do. -/
theorem runEntry_next {d : InFlight} {s t : State} (h : runEntry d s = .next t) :
    s.isModified d.pc = false ∧ ∃ i, decode d.item = .ok i ∧ exec i (s.issue d) = .next t := by
  simp only [runEntry] at h
  split at h
  · cases h
  · split at h
    · cases h
    · exact ⟨by simp_all, _, ‹_›, h⟩

/-- What the execution of the oldest in-flight instruction can do. -/
theorem runOldest_next {s t : State} (h : runOldest s = .next t) :
    (s.inflight = [] ∧ t = s) ∨ ∃ d ds i, s.inflight = d :: ds ∧ s.isModified d.pc = false ∧ decode d.item = .ok i ∧
      exec i (s.dropOldest.issue d) = .next t := by
  simp only [runOldest] at h
  split at h
  · injection h with h; exact .inl ⟨‹_›, h.symm⟩
  · obtain ⟨hm, i, hd, he⟩ := runEntry_next h
    exact .inr ⟨_, _, i, ‹_›, (isModified_congr (s := s) rfl _) ▸ hm, hd, he⟩

/-- What a step with nothing scheduled can do: execute the oldest in-flight instruction, wait, or fetch one word and execute it. -/
theorem runInstruction_next {s t : State} (h : runInstruction s = .next t) :
    (s.inflight ≠ [] ∧ runOldest s = .next t) ∨ (s.inflight = [] ∧ s.fetchStall = true ∧ t = s) ∨
      (s.inflight = [] ∧ s.fetchStall = false ∧ aligned4 s.fetchPc = true ∧
        runOldest (s.fetchItem (.word (s.instrWord s.fetchPc)) .regFile) = .next t) := by
  simp only [runInstruction] at h
  split at h
  · exact .inl ⟨by simp_all, h⟩
  · next hi =>
    split at h
    · next s' hs =>
      rcases tryFetch_next hs with ⟨hst, rfl⟩ | ⟨hst, ha, rfl⟩
      · rcases runOldest_next h with ⟨_, rfl⟩ | ⟨d, ds, _, hd, _⟩
        · exact .inr (.inl ⟨hi, hst, rfl⟩)
        · rw [hi] at hd; cases hd
      · exact .inr (.inr ⟨hi, hst, ha, h⟩)
    · cases h
    · cases h

/-- What a step can do: one event of an external agent, or with none scheduled one instruction. -/
theorem step_next {s t : State} (h : step s = .next t) :
    s.fatal = false ∧ ((∃ e rest, s.schedule = e :: rest ∧ runEvent e { s with schedule := rest } = .next t) ∨
      (s.schedule = [] ∧ runInstruction s = .next t)) := by
  simp only [step, stepMachine] at h
  split at h
  · cases h
  · refine ⟨by simp_all, ?_⟩
    split at h
    · exact .inl ⟨_, _, ‹_›, h⟩
    · exact .inr ⟨‹_›, h⟩

/-- A step takes the first event scheduled. -/
theorem step_of_event {s : State} {e : Event} {rest : List Event} (hf : s.fatal = false) (hs : s.schedule = e :: rest) :
    step s = runEvent e { s with schedule := rest } := by
  rw [step, stepMachine, if_neg (by simp [hf]), hs]

/-- With nothing scheduled a step runs one instruction. -/
theorem step_of_instruction {s : State} (hf : s.fatal = false) (hs : s.schedule = []) : step s = runInstruction s := by
  rw [step, stepMachine, if_neg (by simp [hf]), hs]

/-- Once `fatal` is 1 no step exists. -/
theorem step_of_fatal {s : State} (hf : s.fatal = true) : step s = .fault (.halted s.fatalCause) := by
  rw [step, stepMachine, if_pos hf]

/-- A step that runs an instruction, by an Execute event or with nothing scheduled: it executes the oldest in flight of a state `u` in
which at most the schedule is shorter, or the fetch of one word is done. -/
theorem step_executes {s t : State}
    (hi : s.schedule = [] ∧ (s.fetchStall = false ∨ s.inflight ≠ []) ∨ (∃ rest, s.schedule = .execute :: rest) ∧ s.inflight ≠ [])
    (h : step s = .next t) : ∃ u : State, u.inflight ≠ [] ∧ u.nextFetched = s.nextFetched ∧ runOldest u = .next t ∧
      ((∃ rest, u = { s with schedule := rest }) ∨ u = s.fetchItem (.word (s.instrWord s.fetchPc)) .regFile) := by
  have hf := (step_next h).1
  rcases hi with ⟨hs, hi⟩ | ⟨⟨rest, hs⟩, hi⟩
  · rw [step_of_instruction hf hs] at h
    rcases runInstruction_next h with ⟨hi, h⟩ | ⟨h0, hst, _⟩ | ⟨h0, _, _, h⟩
    · exact ⟨s, hi, rfl, h, .inl ⟨s.schedule, rfl⟩⟩
    · simp_all
    · exact ⟨s.fetchItem (.word (s.instrWord s.fetchPc)) .regFile, by simp [State.fetchItem],
        by simp [State.nextFetched, State.fetchItem, h0], h, .inr rfl⟩
  · rw [step_of_event hf hs] at h
    exact ⟨{ s with schedule := rest }, hi, rfl, h, .inl ⟨rest, rfl⟩⟩

/-- A property of states that each external action and each instruction keeps is kept by every step. -/
theorem step_keeps {P : State → Prop}
    (hsched : ∀ s e rest, s.schedule = e :: rest → P s → P { s with schedule := rest })
    (hcycle : ∀ s, P s → P s.cycleTick) (hretire : ∀ s, P s → P s.retireTick)
    (hpredict : ∀ s v, P s → P { s with predictOut := v }) (hstall : ∀ s v, P s → P { s with fetchStall := v })
    (hfetch : ∀ s item src, P s → P (s.fetchItem item src))
    (hissue : ∀ s d ds, s.inflight = d :: ds → P s → P (s.dropOldest.issue d))
    (hexec : ∀ i s t, exec i s = .next t → P s → P t)
    {s t : State} (h : step s = .next t) (hp : P s) : P t := by
  have hold : ∀ {s t}, runOldest s = .next t → P s → P t := by
    intro s t h hp
    rcases runOldest_next h with ⟨_, rfl⟩ | ⟨d, ds, i, hi, _, _, he⟩
    · exact hp
    · exact hexec i _ _ he (hissue s d ds hi hp)
  obtain ⟨_, ⟨e, rest, hs, he⟩ | ⟨_, he⟩⟩ := step_next h
  · have hp' := hsched s e rest hs hp
    have htry : ∀ {item src}, State.tryFetch item src { s with schedule := rest } = .next t → P t := by
      intro item src h
      rcases tryFetch_next h with ⟨_, rfl⟩ | ⟨_, _, rfl⟩
      · exact hp'
      · exact hfetch _ _ _ hp'
    cases e <;> simp only [runEvent] at he
    case cycleTick => injection he with he; exact he ▸ hcycle _ hp'
    case retireTick => injection he with he; exact he ▸ hretire _ hp'
    case predict pc => injection he with he; exact he ▸ hpredict _ _ hp'
    case fetch => exact htry he
    case fetchBundle w src => exact htry he
    case execute => exact hold he hp'
    case stallSet => injection he with he; exact he ▸ hstall _ _ hp'
    case stallRelease => injection he with he; exact he ▸ hstall _ _ hp'
  · rcases runInstruction_next he with ⟨_, he⟩ | ⟨_, _, rfl⟩ | ⟨_, _, _, he⟩
    · exact hold he hp
    · exact hp
    · exact hold he (hfetch _ _ _ hp)

end Sys2Proof.Machine
end

