-- ==== Sys2Proof/Tests/Slice0.lean ====
section
/-! SUPPORT. Tests: words written out from the encoding tables, ill-formed terms, one step of each instruction with the expected
values of 95_test_vectors.md, and for each statement with hypotheses a state that meets them. -/

namespace Sys2Proof.Tests

open Sys2Proof.Machine

/-! ### Helpers -/

/-- The answer of an outcome that is a next state with property `p`. -/
def holds (o : Host.Outcome State Fault Refusal) (p : State → Bool) : Bool :=
  match o with
  | .next t => p t
  | .fault _ => false
  | .refused _ => false

/-- The outcome is that fault. -/
def faults (o : Host.Outcome State Fault Refusal) (f : Fault) : Bool :=
  match o with
  | .next _ => false
  | .fault g => g == f
  | .refused _ => false

/-- The outcome is that refusal. -/
def refuses (o : Host.Outcome State Fault Refusal) (r : Refusal) : Bool :=
  match o with
  | .next _ => false
  | .fault _ => false
  | .refused q => q == r

/-- A next state with a property, from a check of it. -/
theorem exists_next {o : Host.Outcome State Fault Refusal} {p : State → Bool} (h : holds o p = true) :
    ∃ t, o = .next t ∧ p t = true := by
  cases o with
  | next t => exact ⟨t, rfl, h⟩
  | fault f => cases h
  | refused r => cases h

/-- The reset state with a transaction's inputs on its ports. -/
def inputs (pc v1 v2 : Word) : State :=
  { State.reset with ports := { pc := pc, rs1Value := v1, rs2Value := v2, predNextPc := pc + 4#32 } }

/-- The reset state at `pc` with two registers set. -/
def regs12 (pc v1 v2 : Word) : State := ((inputs pc 0#32 0#32).writeReg 1#5 v1).writeReg 2#5 v2

/-- The memory that the vectors of section 3.3 start from. -/
def withBytes (s : State) : State := { s with mem := [(0x200, 0xFF#8), (0x201, 0x80#8), (0x203, 0x80#8)] }

/-- The counters that the vectors of section 3.4 start from. -/
def withCounters (s : State) : State := { s with cycle := 0x0000000100000005#64, instret := 3#64 }

/-- A state whose configuration has the other redirect policy. -/
def comparing (p : Word) (s : State) : State :=
  { s with cfg := { s.cfg with redirectPolicy := .predictionCompare }, ports := { s.ports with predNextPc := p } }

/-- A bundle whose only non-zero field is `rd`. -/
def rd3 : Bundle := { emptyBundle with rd := 3#5 }

/-- A bundle that adds the pc and an immediate, for a given ALU result. -/
def toTarget (pc target : Word) : Bundle := { emptyBundle with aluOp := 1#4, op1Pc := true, op2Imm := true, rd := 3#5, imm := target - pc }

/-- A bundle that passes rs1_value plus an immediate. -/
def addImm (imm : Word) : Bundle := { emptyBundle with aluOp := 1#4, op2Imm := true, rd := 3#5, imm := imm }

/-- `wb_value` and the register it is written back to. -/
def gives (r : RegIdx) (v : Word) (t : State) : Bool := t.out.wbValue == v && t.readReg r == v && t.out.wbRd == r

/-- `taken`, `rd_value`, `redirect` with its target and `flush`. -/
def resolved (taken : Bool) (rd : Word) (redirect : Option Word) (t : State) : Bool :=
  t.out.taken == taken && t.out.wbValue == rd &&
    (match redirect with
      | some n => t.out.redirect && t.out.flush && t.out.redirectPc == n && t.fetchPc == n
      | none => !t.out.redirect && !t.out.flush && t.fetchPc == 0#32)

/-- Bytes of memory from an address up. -/
def bytesAt (a : Word) (bs : List Byte) (t : State) : Bool :=
  match bs with
  | [] => true
  | b :: rest => readByte t.mem a == b && bytesAt (a + 1#32) rest t

/-! ### Decoding: every row, from a word written out by the encoding tables (R46 to R49, R56 to R58) -/

/-- The ALU rows (R46, R47); the words of ADD, SUB, OR, XOR, the shifts, the compares and the multiplies are those of 95_test_vectors.md section 4. -/
theorem test_decode_alu_rows :
    decode (.bundle 0x0000000010460000#64) = .ok (.aluNone { emptyBundle with rd := 3#5, rs1 := 1#5, rs2 := 2#5 }) ∧
    decode (.bundle 0x0000000400022001#64) = .ok (.aluAdd { emptyBundle with aluOp := 1#4, op2Imm := true, rd := 1#5, imm := 0x4#32 }) ∧
    decode (.bundle 0x0000000008A00002#64) = .ok (.aluSub { emptyBundle with aluOp := 2#4, rd := 16#5, rs1 := 2#5, rs2 := 1#5 }) ∧
    decode (.bundle 0x0000000010461003#64) = .ok (.aluAnd { emptyBundle with aluOp := 3#4, op1Inv := true, rd := 3#5, rs1 := 1#5, rs2 := 2#5 }) ∧
    decode (.bundle 0xFFFFF80000262004#64) = .ok (.aluOr { emptyBundle with aluOp := 4#4, op2Imm := true, rd := 19#5, imm := 0xFFFFF800#32 }) ∧
    decode (.bundle 0x000000F0005E2005#64) = .ok (.aluXor { emptyBundle with aluOp := 5#4, op2Imm := true, rd := 15#5, rs1 := 1#5, imm := 0xF0#32 }) ∧
    decode (.bundle 0x0000001F008E2006#64) = .ok (.aluSll { emptyBundle with aluOp := 6#4, op2Imm := true, rd := 7#5, rs1 := 2#5, imm := 0x1F#32 }) ∧
    decode (.bundle 0x0000001C004C2007#64) = .ok (.aluSrl { emptyBundle with aluOp := 7#4, op2Imm := true, rd := 6#5, rs1 := 1#5, imm := 0x1C#32 }) ∧
    decode (.bundle 0x00000404004A2008#64) = .ok (.aluSra { emptyBundle with aluOp := 8#4, op2Imm := true, rd := 5#5, rs1 := 1#5, imm := 0x404#32 }) ∧
    decode (.bundle 0x0000000000722009#64) = .ok (.aluLti { emptyBundle with aluOp := 9#4, op2Imm := true, rd := 25#5, rs1 := 1#5 }) ∧
    decode (.bundle 0x000000001048000A#64) = .ok (.aluLtu { emptyBundle with aluOp := 10#4, rd := 4#5, rs1 := 1#5, rs2 := 2#5 }) ∧
    decode (.bundle 0x000000005A98000B#64) = .ok (.aluMul { emptyBundle with aluOp := 11#4, rd := 12#5, rs1 := 10#5, rs2 := 11#5 }) ∧
    decode (.bundle 0x000000005A9E000C#64) = .ok (.aluMulh { emptyBundle with aluOp := 12#4, rd := 15#5, rs1 := 10#5, rs2 := 11#5 }) ∧
    decode (.bundle 0x0000000052E2000D#64) = .ok (.aluMulhsu { emptyBundle with aluOp := 13#4, rd := 17#5, rs1 := 11#5, rs2 := 10#5 }) ∧
    decode (.bundle 0x000000005AA0000E#64) = .ok (.aluMulhu { emptyBundle with aluOp := 14#4, rd := 16#5, rs1 := 10#5, rs2 := 11#5 }) ∧
    decode (.bundle 0x000000000000000F#64) = .ok (.aluReserved15 { emptyBundle with aluOp := 15#4 }) := by
  refine ⟨?_, ?_, ?_, ?_, ?_, ?_, ?_, ?_, ?_, ?_, ?_, ?_, ?_, ?_, ?_, ?_⟩ <;> rfl

/-- The branch rows (R46, R48); X-1, X-4 and the words of 95_test_vectors.md section 4 among them. -/
theorem test_decode_branch_rows :
    decode (.bundle 0x0000000000060100#64) = .ok (.brNone { emptyBundle with func3 := 1#3, rd := 3#5 }) ∧
    decode (.bundle 0x0000001800022811#64) = .ok (.brJal { emptyBundle with aluOp := 1#4, brOp := 1#4, op1Pc := true, op2Imm := true, rd := 1#5, imm := 0x18#32 }) ∧
    decode (.bundle 0x0000000000402021#64) = .ok (.brJalr { emptyBundle with aluOp := 1#4, brOp := 2#4, op2Imm := true, rs1 := 1#5 }) ∧
    decode (.bundle 0x0000100010402831#64) = .ok (.brBeq { emptyBundle with aluOp := 1#4, brOp := 3#4, op1Pc := true, op2Imm := true, rs1 := 1#5, rs2 := 2#5, imm := 0x1000#32 }) ∧
    decode (.bundle 0xFFFFFFF800402841#64) = .ok (.brBne { emptyBundle with aluOp := 1#4, brOp := 4#4, op1Pc := true, op2Imm := true, rs1 := 1#5, imm := 0xFFFFFFF8#32 }) ∧
    decode (.bundle 0x0000000810402851#64) = .ok (.brBlt { emptyBundle with aluOp := 1#4, brOp := 5#4, op1Pc := true, op2Imm := true, rs1 := 1#5, rs2 := 2#5, imm := 0x8#32 }) ∧
    decode (.bundle 0x0000000810402861#64) = .ok (.brBge { emptyBundle with aluOp := 1#4, brOp := 6#4, op1Pc := true, op2Imm := true, rs1 := 1#5, rs2 := 2#5, imm := 0x8#32 }) ∧
    decode (.bundle 0x0000000810402871#64) = .ok (.brBltu { emptyBundle with aluOp := 1#4, brOp := 7#4, op1Pc := true, op2Imm := true, rs1 := 1#5, rs2 := 2#5, imm := 0x8#32 }) ∧
    decode (.bundle 0x0000000810402881#64) = .ok (.brBgeu { emptyBundle with aluOp := 1#4, brOp := 8#4, op1Pc := true, op2Imm := true, rs1 := 1#5, rs2 := 2#5, imm := 0x8#32 }) ∧
    decode (.bundle 0x0000000000000091#64) = .ok (.brReserved9 { emptyBundle with aluOp := 1#4, brOp := 9#4 }) ∧
    decode (.bundle 0x00000000000000A1#64) = .ok (.brReserved10 { emptyBundle with aluOp := 1#4, brOp := 10#4 }) ∧
    decode (.bundle 0x00000000000000B1#64) = .ok (.brReserved11 { emptyBundle with aluOp := 1#4, brOp := 11#4 }) ∧
    decode (.bundle 0x00000000000000C1#64) = .ok (.brReserved12 { emptyBundle with aluOp := 1#4, brOp := 12#4 }) ∧
    decode (.bundle 0x00000000000000D1#64) = .ok (.brReserved13 { emptyBundle with aluOp := 1#4, brOp := 13#4 }) ∧
    decode (.bundle 0x00000000000000E1#64) = .ok (.brReserved14 { emptyBundle with aluOp := 1#4, brOp := 14#4 }) ∧
    decode (.bundle 0x00000000000000F1#64) = .ok (.brReserved15 { emptyBundle with aluOp := 1#4, brOp := 15#4 }) := by
  refine ⟨?_, ?_, ?_, ?_, ?_, ?_, ?_, ?_, ?_, ?_, ?_, ?_, ?_, ?_, ?_, ?_⟩ <;> rfl

/-- The load rows (R46, R49). -/
theorem test_decode_load_rows :
    decode (.bundle 0x00000200000C6001#64) = .ok (.memLb { emptyBundle with aluOp := 1#4, op2Imm := true, isLoad := true, rd := 6#5, imm := 0x200#32 }) ∧
    decode (.bundle 0x00000200000E6101#64) = .ok (.memLh { emptyBundle with aluOp := 1#4, func3 := 1#3, op2Imm := true, isLoad := true, rd := 7#5, imm := 0x200#32 }) ∧
    decode (.bundle 0x0000020000106201#64) = .ok (.memLw { emptyBundle with aluOp := 1#4, func3 := 2#3, op2Imm := true, isLoad := true, rd := 8#5, imm := 0x200#32 }) ∧
    decode (.bundle 0x0000020000126301#64) = .ok (.memLoadReserved3 { emptyBundle with aluOp := 1#4, func3 := 3#3, op2Imm := true, isLoad := true, rd := 9#5, imm := 0x200#32 }) ∧
    decode (.bundle 0x0000020000146401#64) = .ok (.memLbu { emptyBundle with aluOp := 1#4, func3 := 4#3, op2Imm := true, isLoad := true, rd := 10#5, imm := 0x200#32 }) ∧
    decode (.bundle 0x0000020000166501#64) = .ok (.memLhu { emptyBundle with aluOp := 1#4, func3 := 5#3, op2Imm := true, isLoad := true, rd := 11#5, imm := 0x200#32 }) ∧
    decode (.bundle 0x0000020000186601#64) = .ok (.memLoadF36 { emptyBundle with aluOp := 1#4, func3 := 6#3, op2Imm := true, isLoad := true, rd := 12#5, imm := 0x200#32 }) ∧
    decode (.bundle 0x00000200001A6701#64) = .ok (.memLoadReserved7 { emptyBundle with aluOp := 1#4, func3 := 7#3, op2Imm := true, isLoad := true, rd := 13#5, imm := 0x200#32 }) := by
  refine ⟨?_, ?_, ?_, ?_, ?_, ?_, ?_, ?_⟩ <;> rfl

/-- The store rows (R46, R49), two of them with func3[2] set, which a store ignores (R113). -/
theorem test_decode_store_rows :
    decode (.bundle 0x000000007340A001#64) = .ok (.memSb { emptyBundle with aluOp := 1#4, op2Imm := true, isStore := true, rs1 := 13#5, rs2 := 14#5 }) ∧
    decode (.bundle 0x000002062800A501#64) = .ok (.memSh { emptyBundle with aluOp := 1#4, func3 := 5#3, op2Imm := true, isStore := true, rs2 := 5#5, imm := 0x206#32 }) ∧
    decode (.bundle 0x000001001000A201#64) = .ok (.memSw { emptyBundle with aluOp := 1#4, func3 := 2#3, op2Imm := true, isStore := true, rs2 := 2#5, imm := 0x100#32 }) ∧
    decode (.bundle 0x000002000000A701#64) = .ok (.memStoreReserved3 { emptyBundle with aluOp := 1#4, func3 := 7#3, op2Imm := true, isStore := true, imm := 0x200#32 }) := by
  refine ⟨?_, ?_, ?_, ?_⟩ <;> rfl

/-- The CSR row, PASS and the ill-formed class rows (R46, R52), three of the words from 95_test_vectors.md section 3.5. -/
theorem test_decode_class_rows :
    decode (.bundle 0x00000340001D0004#64) = .ok (.csrAccess { emptyBundle with aluOp := 4#4, isCsr := true, rd := 14#5, imm := 0x340#32 }) ∧
    decode (.bundle 0x00000000000A0200#64) = .ok (.pass { emptyBundle with func3 := 2#3, rd := 5#5 }) ∧
    decode (.bundle 0x000000000000E001#64) = .ok (.illegalLoadStore { emptyBundle with aluOp := 1#4, op2Imm := true, isLoad := true, isStore := true }) ∧
    decode (.bundle 0x000000000001400F#64) = .ok (.illegalLoadCsr { emptyBundle with aluOp := 15#4, isLoad := true, isCsr := true }) ∧
    decode (.bundle 0x0000000000018001#64) = .ok (.illegalStoreCsr { emptyBundle with aluOp := 1#4, isStore := true, isCsr := true }) ∧
    decode (.bundle 0x0000000000004011#64) = .ok (.illegalLoadBranch { emptyBundle with aluOp := 1#4, brOp := 1#4, isLoad := true }) ∧
    decode (.bundle 0x0000000000008021#64) = .ok (.illegalStoreBranch { emptyBundle with aluOp := 1#4, brOp := 2#4, isStore := true }) ∧
    decode (.bundle 0x0000034000010034#64) = .ok (.illegalCsrBranch { emptyBundle with aluOp := 4#4, brOp := 3#4, isCsr := true, imm := 0x340#32 }) := by
  refine ⟨?_, ?_, ?_, ?_, ?_, ?_, ?_, ?_⟩ <;> rfl

/-- Upper immediates, jumps and branches (R56, R57), with offsets whose every bit group differs. -/
theorem test_decode_rv32_jumps :
    decode (.word 0x800082B7#32) = .ok (.lui 5#5 0x80008#20) ∧
    decode (.word 0x00001717#32) = .ok (.auipc 14#5 1#20) ∧
    decode (.word 0x018000EF#32) = .ok (.jal 1#5 0x18#21) ∧
    decode (.word 0x00008067#32) = .ok (.jalr 0#5 1#5 0#12) ∧
    decode (.word 0x00108463#32) = .ok (.beq 1#5 1#5 8#13) ∧
    decode (.word 0xFE009CE3#32) = .ok (.bne 1#5 0#5 0x1FF8#13) ∧
    decode (.word 0x0020C463#32) = .ok (.blt 1#5 2#5 8#13) ∧
    decode (.word 0x00115463#32) = .ok (.bge 2#5 1#5 8#13) ∧
    decode (.word 0x0020E463#32) = .ok (.bltu 1#5 2#5 8#13) ∧
    decode (.word 0x0A20F5E3#32) = .ok (.bgeu 1#5 2#5 0x8AA#13) ∧
    decode (.word 0xAABAA16F#32) = .ok (.jal 2#5 0x1AAAAA#21) := by
  refine ⟨?_, ?_, ?_, ?_, ?_, ?_, ?_, ?_, ?_, ?_, ?_⟩ <;> rfl

/-- Loads and stores (R56, R57), the words of 95_test_vectors.md programs P1 and P2. -/
theorem test_decode_rv32_memory :
    decode (.word 0x20000303#32) = .ok (.lb 6#5 0#5 0x200#12) ∧
    decode (.word 0x20201403#32) = .ok (.lh 8#5 0#5 0x202#12) ∧
    decode (.word 0x20002503#32) = .ok (.lw 10#5 0#5 0x200#12) ∧
    decode (.word 0x20004383#32) = .ok (.lbu 7#5 0#5 0x200#12) ∧
    decode (.word 0x20205483#32) = .ok (.lhu 9#5 0#5 0x202#12) ∧
    decode (.word 0x00E68023#32) = .ok (.sb 13#5 14#5 0#12) ∧
    decode (.word 0x20501323#32) = .ok (.sh 0#5 5#5 0x206#12) ∧
    decode (.word 0x10202023#32) = .ok (.sw 0#5 2#5 0x100#12) := by
  refine ⟨?_, ?_, ?_, ?_, ?_, ?_, ?_, ?_⟩ <;> rfl

/-- Register-immediate operations (R56, R57), the words of programs P1 and P5. -/
theorem test_decode_rv32_immediate :
    decode (.word 0x00400093#32) = .ok (.addi 1#5 0#5 4#12) ∧
    decode (.word 0x0000AC93#32) = .ok (.slti 25#5 1#5 0#12) ∧
    decode (.word 0xFFF13893#32) = .ok (.sltiu 17#5 2#5 0xFFF#12) ∧
    decode (.word 0x0F00C793#32) = .ok (.xori 15#5 1#5 0xF0#12) ∧
    decode (.word 0x80006993#32) = .ok (.ori 19#5 0#5 0x800#12) ∧
    decode (.word 0x7FF0F913#32) = .ok (.andi 18#5 1#5 0x7FF#12) ∧
    decode (.word 0x01F11393#32) = .ok (.slli 7#5 2#5 31#5) ∧
    decode (.word 0x01C0D313#32) = .ok (.srli 6#5 1#5 28#5) ∧
    decode (.word 0x4040D293#32) = .ok (.srai 5#5 1#5 4#5) := by
  refine ⟨?_, ?_, ?_, ?_, ?_, ?_, ?_, ?_, ?_⟩ <;> rfl

/-- Register-register operations (R56, R57), and the divides that the decoder refuses later (R58). -/
theorem test_decode_rv32_register :
    decode (.word 0x002081B3#32) = .ok (.add 3#5 1#5 2#5) ∧
    decode (.word 0x402081B3#32) = .ok (.sub 3#5 1#5 2#5) ∧
    decode (.word 0x002091B3#32) = .ok (.sll 3#5 1#5 2#5) ∧
    decode (.word 0x0020A1B3#32) = .ok (.slt 3#5 1#5 2#5) ∧
    decode (.word 0x0020B1B3#32) = .ok (.sltu 3#5 1#5 2#5) ∧
    decode (.word 0x0020C1B3#32) = .ok (.xor 3#5 1#5 2#5) ∧
    decode (.word 0x0020D1B3#32) = .ok (.srl 3#5 1#5 2#5) ∧
    decode (.word 0x4020D1B3#32) = .ok (.sra 3#5 1#5 2#5) ∧
    decode (.word 0x0020E1B3#32) = .ok (.or 3#5 1#5 2#5) ∧
    decode (.word 0x0020F1B3#32) = .ok (.and 3#5 1#5 2#5) ∧
    decode (.word 0x022081B3#32) = .ok (.mul 3#5 1#5 2#5) ∧
    decode (.word 0x022091B3#32) = .ok (.mulh 3#5 1#5 2#5) ∧
    decode (.word 0x0220A1B3#32) = .ok (.mulhsu 3#5 1#5 2#5) ∧
    decode (.word 0x0220B1B3#32) = .ok (.mulhu 3#5 1#5 2#5) ∧
    decode (.word 0x0220C1B3#32) = .ok (.div 3#5 1#5 2#5) ∧
    decode (.word 0x0220D1B3#32) = .ok (.divu 3#5 1#5 2#5) ∧
    decode (.word 0x0220E1B3#32) = .ok (.rem 3#5 1#5 2#5) ∧
    decode (.word 0x0220F1B3#32) = .ok (.remu 3#5 1#5 2#5) := by
  refine ⟨?_, ?_, ?_, ?_, ?_, ?_, ?_, ?_, ?_, ?_, ?_, ?_, ?_, ?_, ?_, ?_, ?_, ?_⟩ <;> rfl

/-- FENCE, the CSR accesses, ECALL, EBREAK and FENCE.I (R56 to R58). -/
theorem test_decode_rv32_system :
    decode (.word 0x0FF0000F#32) = .ok (.fence 0#4 15#4 15#4 0#5 0#5) ∧
    decode (.word 0x340616F3#32) = .ok (.csrrw 13#5 12#5 0x340#12) ∧
    decode (.word 0x34002773#32) = .ok (.csrrs 14#5 0#5 0x340#12) ∧
    decode (.word 0xC00032F3#32) = .ok (.csrrc 5#5 0#5 0xC00#12) ∧
    decode (.word 0x340052F3#32) = .ok (.csrrwi 5#5 0#5 0x340#12) ∧
    decode (.word 0xC000E2F3#32) = .ok (.csrrsi 5#5 1#5 0xC00#12) ∧
    decode (.word 0xC800F2F3#32) = .ok (.csrrci 5#5 1#5 0xC80#12) ∧
    decode (.word 0x00000073#32) = .ok (.ecall) ∧
    decode (.word 0x00100073#32) = .ok (.ebreak) ∧
    decode (.word 0x0000100F#32) = .ok (.fenceI 0#5 0#5 0#12) := by
  refine ⟨?_, ?_, ?_, ?_, ?_, ?_, ?_, ?_, ?_, ?_⟩ <;> rfl

/-- Words of no row: a compressed one, an AMO, an unused funct3 or funct7, MRET (R58). -/
theorem test_decode_refuses :
    decode (.word 0x00000001#32) = .error .compressed ∧ decode (.word 0x0020A02F#32) = .error .opcode ∧
    decode (.word 0x00003003#32) = .error .funct ∧ decode (.word 0x40001033#32) = .error .funct ∧
    decode (.word 0x40001013#32) = .error .funct ∧ decode (.word 0x30200073#32) = .error .system := by
  refine ⟨?_, ?_, ?_, ?_, ?_, ?_⟩ <;> rfl

/-- The table words of rows that two formats share: a one-byte ALU selector and a four-byte RV32 word (log 7). -/
theorem test_table_words :
    decodeTableWord 8 0x01 = some (.aluAdd { emptyBundle with aluOp := 1#4 }) ∧
    decodeTableWord 32 0x00400093 = some (.addi 1#5 0#5 4#12) ∧
    decodeTableWord 24 0x016001 = some (.illegalLoadCsr { emptyBundle with aluOp := 1#4, op2Imm := true, isLoad := true, isCsr := true }) := by
  refine ⟨?_, ?_, ?_⟩ <;> rfl

/-! ### Ill-formed terms -/

/-- Each check of `Instr.wf` refuses a term that fails it (R52, R53, R56; log 6). -/
theorem test_wf_refuses :
    (Instr.aluAdd emptyBundle).wf = false ∧ (Instr.aluAdd { emptyBundle with aluOp := 1#4, brOp := 1#4 }).wf = false ∧
    (Instr.aluAdd { emptyBundle with aluOp := 1#4, isLoad := true }).wf = false ∧
    (Instr.aluNone { emptyBundle with func3 := 1#3 }).wf = false ∧ (Instr.brNone emptyBundle).wf = false ∧
    (Instr.pass emptyBundle).wf = false ∧
    (Instr.aluReserved15 { emptyBundle with aluOp := 15#4, isLoad := true, isCsr := true }).wf = false ∧
    (Instr.brBeq { emptyBundle with brOp := 4#4 }).wf = false ∧ (Instr.brBeq { emptyBundle with brOp := 3#4, aluOp := 15#4 }).wf = false ∧
    (Instr.brBeq { emptyBundle with brOp := 3#4, isCsr := true }).wf = false ∧
    (Instr.memLw { emptyBundle with func3 := 1#3, isLoad := true }).wf = false ∧
    (Instr.memLw { emptyBundle with func3 := 2#3, isLoad := true, isStore := true }).wf = false ∧
    (Instr.memSw { emptyBundle with func3 := 2#3, isStore := true, aluOp := 15#4 }).wf = false ∧
    (Instr.memSw { emptyBundle with func3 := 1#3, isStore := true }).wf = false ∧
    (Instr.csrAccess { emptyBundle with isCsr := true, brOp := 1#4 }).wf = false ∧
    (Instr.illegalLoadStore { emptyBundle with isLoad := true }).wf = false ∧
    (Instr.illegalLoadBranch { emptyBundle with isLoad := true }).wf = false ∧
    (Instr.jal 1#5 1#21).wf = false ∧ (Instr.beq 1#5 2#5 3#13).wf = false := by
  refine ⟨?_, ?_, ?_, ?_, ?_, ?_, ?_, ?_, ?_, ?_, ?_, ?_, ?_, ?_, ?_, ?_, ?_, ?_, ?_⟩ <;> rfl

/-! ### One step of each bundle row (95_test_vectors.md sections 2 and 3) -/

/-- ALU.NONE (section 2.2). -/
theorem test_aluNone :
    holds (exec (.aluNone rd3) (inputs 0x100#32 0x00000005#32 0x00000006#32)) (gives 3#5 0x00000000#32) = true :=
  by decide

/-- ALU.ADD (section 2.2). -/
theorem test_aluAdd :
    holds (exec (.aluAdd rd3) (inputs 0x100#32 0xFFFFFFFF#32 0x00000002#32)) (gives 3#5 0x00000001#32) = true :=
  by decide

/-- ALU.SUB (section 2.2). -/
theorem test_aluSub :
    holds (exec (.aluSub rd3) (inputs 0x100#32 0x00000000#32 0x00000001#32)) (gives 3#5 0xFFFFFFFF#32) = true :=
  by decide

/-- ALU.AND (section 2.2). -/
theorem test_aluAnd :
    holds (exec (.aluAnd rd3) (inputs 0x100#32 0xF0F0F0F0#32 0xFF00FF00#32)) (gives 3#5 0xF000F000#32) = true :=
  by decide

/-- ALU.OR (section 2.2). -/
theorem test_aluOr :
    holds (exec (.aluOr rd3) (inputs 0x100#32 0x80000000#32 0x00000001#32)) (gives 3#5 0x80000001#32) = true :=
  by decide

/-- ALU.XOR (section 2.2). -/
theorem test_aluXor :
    holds (exec (.aluXor rd3) (inputs 0x100#32 0xFFFF0000#32 0xFF00FF00#32)) (gives 3#5 0x00FFFF00#32) = true :=
  by decide

/-- ALU.SLL (section 2.2). -/
theorem test_aluSll :
    holds (exec (.aluSll rd3) (inputs 0x100#32 0x00000001#32 0xFFFFFFE1#32)) (gives 3#5 0x00000002#32) = true :=
  by decide

/-- ALU.SLL (section 2.2). -/
theorem test_aluSll_2 :
    holds (exec (.aluSll rd3) (inputs 0x100#32 0x12345678#32 0x00000004#32)) (gives 3#5 0x23456780#32) = true :=
  by decide

/-- ALU.SRL (section 2.2). -/
theorem test_aluSrl :
    holds (exec (.aluSrl rd3) (inputs 0x100#32 0x80000000#32 0x0000041F#32)) (gives 3#5 0x00000001#32) = true :=
  by decide

/-- ALU.SRA (section 2.2). -/
theorem test_aluSra :
    holds (exec (.aluSra rd3) (inputs 0x100#32 0xF0000000#32 0x00000404#32)) (gives 3#5 0xFF000000#32) = true :=
  by decide

/-- ALU.LTI (section 2.2). -/
theorem test_aluLti :
    holds (exec (.aluLti rd3) (inputs 0x100#32 0x80000000#32 0x00000001#32)) (gives 3#5 0x00000001#32) = true :=
  by decide

/-- ALU.LTU (section 2.2). -/
theorem test_aluLtu :
    holds (exec (.aluLtu rd3) (inputs 0x100#32 0x80000000#32 0x00000001#32)) (gives 3#5 0x00000000#32) = true :=
  by decide

/-- ALU.MUL (section 2.2). -/
theorem test_aluMul :
    holds (exec (.aluMul rd3) (inputs 0x100#32 0x00000007#32 0xFFFFFFFD#32)) (gives 3#5 0xFFFFFFEB#32) = true :=
  by decide

/-- ALU.MULH (section 2.2). -/
theorem test_aluMulh :
    holds (exec (.aluMulh rd3) (inputs 0x100#32 0x80000000#32 0x7FFFFFFF#32)) (gives 3#5 0xC0000000#32) = true :=
  by decide

/-- ALU.MULHSU (section 2.2). -/
theorem test_aluMulhsu :
    holds (exec (.aluMulhsu rd3) (inputs 0x100#32 0x00000002#32 0xFFFFFFFF#32)) (gives 3#5 0x00000001#32) = true :=
  by decide

/-- ALU.MULHSU (section 2.2). -/
theorem test_aluMulhsu_2 :
    holds (exec (.aluMulhsu rd3) (inputs 0x100#32 0x80000000#32 0xFFFFFFFF#32)) (gives 3#5 0x80000000#32) = true :=
  by decide

/-- ALU.MULHU (section 2.2). -/
theorem test_aluMulhu :
    holds (exec (.aluMulhu rd3) (inputs 0x100#32 0xFFFFFFFF#32 0xFFFFFFFF#32)) (gives 3#5 0xFFFFFFFE#32) = true :=
  by decide

/-- The last row of section 2.1: inversion after selection, operand2 never inverted. -/
theorem test_operand_forms :
    holds (exec (.aluAdd { emptyBundle with op1Pc := true, op1Inv := true, op2Imm := true, rd := 3#5, imm := 1#32 }) (inputs 0x100#32 0xF#32 0xFF#32)) (gives 3#5 0xFFFFFF00#32) = true :=
  by decide

/-- Section 3.5, cause 2. -/
theorem test_aluReserved15 : faults (exec (.aluReserved15 rd3) (inputs 0#32 5#32 0#32)) (.fatal .badAluOp) = true := by decide

/-- BR.NONE resolves not taken and makes no Update (section 3.1). -/
theorem test_brNone :
    holds (exec (.brNone rd3) (inputs 0x100#32 5#32 6#32)) (fun t => resolved false 0#32 none t && t.btb == [] && t.bht == [] && t.bhr == 0#32) = true :=
  by decide

/-- JAL (section 3.1). -/
theorem test_brJal :
    holds (exec (.brJal (toTarget 0x00000008#32 0x00000018#32)) (inputs 0x00000008#32 0x00000000#32 0x00000000#32)) (resolved true 0x0000000C#32 none) = true :=
  by decide

/-- JALR (section 3.1). -/
theorem test_brJalr :
    holds (exec (.brJalr (toTarget 0x00000100#32 0x00001001#32)) (inputs 0x00000100#32 0x00000000#32 0x00000000#32)) (resolved true 0x00000104#32 (some 0x00001000#32)) = true :=
  by decide

/-- JALR (section 3.1). -/
theorem test_brJalr_2 :
    holds (exec (.brJalr (toTarget 0x00000100#32 0x00000105#32)) (inputs 0x00000100#32 0x00000000#32 0x00000000#32)) (resolved true 0x00000104#32 none) = true :=
  by decide

/-- BEQ (section 3.1). -/
theorem test_brBeq :
    holds (exec (.brBeq (toTarget 0x00001000#32 0x00002000#32)) (inputs 0x00001000#32 0x00000005#32 0x00000005#32)) (resolved true 0x00002000#32 (some 0x00002000#32)) = true :=
  by decide

/-- BEQ (section 3.1). -/
theorem test_brBeq_2 :
    holds (exec (.brBeq (toTarget 0x00001000#32 0x00002000#32)) (inputs 0x00001000#32 0x00000005#32 0x00000006#32)) (resolved false 0x00002000#32 none) = true :=
  by decide

/-- BNE (section 3.1). -/
theorem test_brBne :
    holds (exec (.brBne (toTarget 0x00000010#32 0x00000008#32)) (inputs 0x00000010#32 0x00000003#32 0x00000000#32)) (resolved true 0x00000008#32 (some 0x00000008#32)) = true :=
  by decide

/-- BNE (section 3.1). -/
theorem test_brBne_2 :
    holds (exec (.brBne (toTarget 0x00000010#32 0x00000008#32)) (inputs 0x00000010#32 0x00000003#32 0x00000003#32)) (resolved false 0x00000008#32 none) = true :=
  by decide

/-- BLT (section 3.1). -/
theorem test_brBlt :
    holds (exec (.brBlt (toTarget 0x00000040#32 0x00000020#32)) (inputs 0x00000040#32 0x80000000#32 0x00000001#32)) (resolved true 0x00000020#32 (some 0x00000020#32)) = true :=
  by decide

/-- BLT (section 3.1). -/
theorem test_brBlt_2 :
    holds (exec (.brBlt (toTarget 0x00000040#32 0x00000020#32)) (inputs 0x00000040#32 0x00000005#32 0x00000005#32)) (resolved false 0x00000020#32 none) = true :=
  by decide

/-- BGE (section 3.1). -/
theorem test_brBge :
    holds (exec (.brBge (toTarget 0x00000040#32 0x00000020#32)) (inputs 0x00000040#32 0x00000005#32 0x00000005#32)) (resolved true 0x00000020#32 (some 0x00000020#32)) = true :=
  by decide

/-- BGE (section 3.1). -/
theorem test_brBge_2 :
    holds (exec (.brBge (toTarget 0x00000040#32 0x00000020#32)) (inputs 0x00000040#32 0x80000000#32 0x7FFFFFFF#32)) (resolved false 0x00000020#32 none) = true :=
  by decide

/-- BLTU (section 3.1). -/
theorem test_brBltu :
    holds (exec (.brBltu (toTarget 0x00000040#32 0x00000020#32)) (inputs 0x00000040#32 0x00000000#32 0xFFFFFFFF#32)) (resolved true 0x00000020#32 (some 0x00000020#32)) = true :=
  by decide

/-- BLTU (section 3.1). -/
theorem test_brBltu_2 :
    holds (exec (.brBltu (toTarget 0x00000040#32 0x00000020#32)) (inputs 0x00000040#32 0x80000000#32 0x00000001#32)) (resolved false 0x00000020#32 none) = true :=
  by decide

/-- BGEU (section 3.1). -/
theorem test_brBgeu :
    holds (exec (.brBgeu (toTarget 0x00000040#32 0x00000020#32)) (inputs 0x00000040#32 0x80000000#32 0x00000001#32)) (resolved true 0x00000020#32 (some 0x00000020#32)) = true :=
  by decide

/-- BGEU (section 3.1). -/
theorem test_brBgeu_2 :
    holds (exec (.brBgeu (toTarget 0x00000040#32 0x00000020#32)) (inputs 0x00000040#32 0x00000000#32 0x00000001#32)) (resolved false 0x00000020#32 none) = true :=
  by decide

/-- W13: the Update of a taken BEQ. -/
theorem test_brBeq_updates :
    holds (exec (.brBeq (toTarget 0x1000#32 0x2000#32)) (inputs 0x1000#32 5#32 5#32)) (fun t => t.bht == [(0, 1#2)] && t.btb == [(0, { valid := true, tag := 0x40#32, target := 0x2000#32 })] && t.bhr == 1#32) = true :=
  by decide

/-- Section 3.5, cause 3. -/
theorem test_brReserved :
    ([Instr.brReserved9 rd3, .brReserved10 rd3, .brReserved11 rd3, .brReserved12 rd3, .brReserved13 rd3, .brReserved14 rd3, .brReserved15 rd3].all fun i => faults (exec i (inputs 0#32 5#32 0#32)) (.fatal .badBranchOp)) = true :=
  by decide

/-- Section 3.3. -/
theorem test_memLb :
    holds (exec (.memLb (addImm 0#32)) (withBytes (inputs 0#32 0x00000201#32 0#32))) (gives 3#5 0xFFFFFF80#32) = true :=
  by decide

/-- Section 3.3. -/
theorem test_memLh :
    holds (exec (.memLh (addImm 0#32)) (withBytes (inputs 0#32 0x00000203#32 0#32))) (gives 3#5 0x00000080#32) = true :=
  by decide

/-- Section 3.3. -/
theorem test_memLw :
    holds (exec (.memLw (addImm 0#32)) (withBytes (inputs 0#32 0x00000201#32 0#32))) (gives 3#5 0x00800080#32) = true :=
  by decide

/-- Section 3.3. -/
theorem test_memLbu :
    holds (exec (.memLbu (addImm 0#32)) (withBytes (inputs 0#32 0x00000200#32 0#32))) (gives 3#5 0x000000FF#32) = true :=
  by decide

/-- Section 3.3. -/
theorem test_memLhu :
    holds (exec (.memLhu (addImm 0#32)) (withBytes (inputs 0#32 0x00000200#32 0#32))) (gives 3#5 0x000080FF#32) = true :=
  by decide

/-- Section 3.3. -/
theorem test_memLoadF36 :
    holds (exec (.memLoadF36 (addImm 0#32)) (withBytes (inputs 0#32 0x00000200#32 0#32))) (gives 3#5 0x800080FF#32) = true :=
  by decide

/-- Section 3.5, cause 4. -/
theorem test_mem_reserved :
    ([Instr.memLoadReserved3 (addImm 0#32), .memLoadReserved7 (addImm 0#32), .memStoreReserved3 (addImm 0#32)].all fun i => faults (exec i (withBytes (inputs 0#32 0x200#32 0#32))) (.fatal .badMemWidth)) = true :=
  by decide

/-- Section 3.3: SB to memory. -/
theorem test_memSb :
    holds (exec (.memSb (addImm 0#32)) (withBytes (inputs 0#32 0x00000204#32 0xFFFFFFFF#32))) (fun t => bytesAt 0x203#32 [0x80#8, 0xFF#8, 0#8] t && t.console == []) = true :=
  by decide

/-- Section 3.3: the last byte of the console range. -/
theorem test_memSb_console :
    holds (exec (.memSb (addImm 0#32)) (withBytes (inputs 0#32 0xF00000FF#32 0x00000042#32))) (fun t => t.console == [[0x42#8]] && bytesAt 0xF00000FF#32 [0#8] t) = true :=
  by decide

/-- Section 3.3: SH at an odd address. -/
theorem test_memSh :
    holds (exec (.memSh (addImm 0#32)) (withBytes (inputs 0#32 0x00000201#32 0x0000ABCD#32))) (fun t => bytesAt 0x200#32 [0xFF#8, 0xCD#8, 0xAB#8, 0x80#8] t) = true :=
  by decide

/-- Section 3.3: SW wraps past 0xFFFFFFFF. -/
theorem test_memSw :
    holds (exec (.memSw (addImm 0#32)) (withBytes (inputs 0#32 0xFFFFFFFE#32 0x11223344#32))) (fun t => bytesAt 0xFFFFFFFE#32 [0x44#8, 0x33#8, 0x22#8, 0x11#8, 0#8] t) = true :=
  by decide

/-- Section 3.3: SW that starts in the console range and ends past it. -/
theorem test_memSw_console :
    holds (exec (.memSw (addImm 0#32)) (withBytes (inputs 0#32 0xF00000FE#32 0x11223344#32))) (fun t => t.console == [[0x44#8, 0x33#8, 0x22#8, 0x11#8]] && bytesAt 0xF00000FE#32 [0#8, 0#8, 0#8] t) = true :=
  by decide

/-- W9: a write of the current value is no write. -/
theorem test_csrAccess :
    holds (exec (.csrAccess (addImm 0xC00#32)) (withCounters (inputs 0#32 (5#32 - 0xC00#32) 0#32))) (gives 3#5 5#32) = true :=
  by decide

/-- Section 3.4: a write of another value to a counter. -/
theorem test_csrAccess_2 :
    faults (exec (.csrAccess (addImm 0xC00#32)) (withCounters (inputs 0#32 (6#32 - 0xC00#32) 0#32))) (.fatal .csrWriteReadonly) = true :=
  by decide

/-- Section 3.3, last row. -/
theorem test_pass :
    holds (exec (.pass (addImm 0x12345678#32)) (inputs 0#32 0#32 0#32)) (gives 3#5 0x12345678#32) = true :=
  by decide

/-- Section 3.5, cause 1. -/
theorem test_illegal_rows :
    ([Instr.illegalLoadStore rd3, .illegalLoadCsr rd3, .illegalStoreCsr rd3, .illegalLoadBranch rd3, .illegalStoreBranch rd3, .illegalCsrBranch rd3].all fun i => faults (exec i (inputs 0#32 5#32 0#32)) (.fatal .illegalBundle)) = true :=
  by decide

/-! ### One step of each RV32 row -/

/-- Section 2.2 or program P3 or P5. -/
theorem test_add :
    holds (exec (.add 3#5 1#5 2#5) (regs12 0x100#32 0x7FFFFFFF#32 0x00000001#32)) (gives 3#5 0x80000000#32) = true :=
  by decide

/-- Section 2.2 or program P3 or P5. -/
theorem test_sub :
    holds (exec (.sub 3#5 1#5 2#5) (regs12 0x100#32 0x00000000#32 0x00000001#32)) (gives 3#5 0xFFFFFFFF#32) = true :=
  by decide

/-- Section 2.2 or program P3 or P5. -/
theorem test_sll :
    holds (exec (.sll 3#5 1#5 2#5) (regs12 0x100#32 0x00000001#32 0x00000020#32)) (gives 3#5 0x00000001#32) = true :=
  by decide

/-- Section 2.2 or program P3 or P5. -/
theorem test_slt :
    holds (exec (.slt 3#5 1#5 2#5) (regs12 0x100#32 0xFFFFFFFF#32 0x00000001#32)) (gives 3#5 0x00000001#32) = true :=
  by decide

/-- Section 2.2 or program P3 or P5. -/
theorem test_sltu :
    holds (exec (.sltu 3#5 1#5 2#5) (regs12 0x100#32 0xFFFFFFFF#32 0x00000001#32)) (gives 3#5 0x00000000#32) = true :=
  by decide

/-- Section 2.2 or program P3 or P5. -/
theorem test_xor :
    holds (exec (.xor 3#5 1#5 2#5) (regs12 0x100#32 0xFFFFFFFF#32 0x80000000#32)) (gives 3#5 0x7FFFFFFF#32) = true :=
  by decide

/-- Section 2.2 or program P3 or P5. -/
theorem test_srl :
    holds (exec (.srl 3#5 1#5 2#5) (regs12 0x100#32 0x80000000#32 0x0000001F#32)) (gives 3#5 0x00000001#32) = true :=
  by decide

/-- Section 2.2 or program P3 or P5. -/
theorem test_sra :
    holds (exec (.sra 3#5 1#5 2#5) (regs12 0x100#32 0x80000000#32 0x00000004#32)) (gives 3#5 0xF8000000#32) = true :=
  by decide

/-- Section 2.2 or program P3 or P5. -/
theorem test_or :
    holds (exec (.or 3#5 1#5 2#5) (regs12 0x100#32 0x80000000#32 0x00000001#32)) (gives 3#5 0x80000001#32) = true :=
  by decide

/-- Section 2.2 or program P3 or P5. -/
theorem test_and :
    holds (exec (.and 3#5 1#5 2#5) (regs12 0x100#32 0xFFFFFFF0#32 0x000000FF#32)) (gives 3#5 0x000000F0#32) = true :=
  by decide

/-- Section 2.2 or program P3 or P5. -/
theorem test_mul :
    holds (exec (.mul 3#5 1#5 2#5) (regs12 0x100#32 0x00000007#32 0xFFFFFFFD#32)) (gives 3#5 0xFFFFFFEB#32) = true :=
  by decide

/-- Section 2.2 or program P3 or P5. -/
theorem test_mulh :
    holds (exec (.mulh 3#5 1#5 2#5) (regs12 0x100#32 0xFFFFFFFF#32 0x00000002#32)) (gives 3#5 0xFFFFFFFF#32) = true :=
  by decide

/-- Section 2.2 or program P3 or P5. -/
theorem test_mulhsu :
    holds (exec (.mulhsu 3#5 1#5 2#5) (regs12 0x100#32 0xFFFFFFFD#32 0x00000007#32)) (gives 3#5 0xFFFFFFFF#32) = true :=
  by decide

/-- Section 2.2 or program P3 or P5. -/
theorem test_mulhu :
    holds (exec (.mulhu 3#5 1#5 2#5) (regs12 0x100#32 0x00000007#32 0xFFFFFFFD#32)) (gives 3#5 0x00000006#32) = true :=
  by decide

/-- Section 2.2 or program P5. -/
theorem test_addi :
    holds (exec (.addi 3#5 1#5 0x800#12) (regs12 0x100#32 0x00001000#32 0#32)) (gives 3#5 0x00000800#32) = true :=
  by decide

/-- Section 2.2 or program P5. -/
theorem test_slti :
    holds (exec (.slti 3#5 1#5 0#12) (regs12 0x100#32 0xFFFFFFFF#32 0#32)) (gives 3#5 0x00000001#32) = true :=
  by decide

/-- Section 2.2 or program P5. -/
theorem test_sltiu :
    holds (exec (.sltiu 3#5 1#5 0xFFF#12) (regs12 0x100#32 0x00000001#32 0#32)) (gives 3#5 0x00000001#32) = true :=
  by decide

/-- Section 2.2 or program P5. -/
theorem test_xori :
    holds (exec (.xori 3#5 1#5 0xF0#12) (regs12 0x100#32 0xFFFFFFFF#32 0#32)) (gives 3#5 0xFFFFFF0F#32) = true :=
  by decide

/-- Section 2.2 or program P5. -/
theorem test_ori :
    holds (exec (.ori 3#5 1#5 0x800#12) (regs12 0x100#32 0x00000000#32 0#32)) (gives 3#5 0xFFFFF800#32) = true :=
  by decide

/-- Section 2.2 or program P5. -/
theorem test_andi :
    holds (exec (.andi 3#5 1#5 0x7FF#12) (regs12 0x100#32 0xFFFFFFFF#32 0#32)) (gives 3#5 0x000007FF#32) = true :=
  by decide

/-- Section 2.2 or program P5. -/
theorem test_slli :
    holds (exec (.slli 3#5 1#5 31#5) (regs12 0x100#32 0x00000001#32 0#32)) (gives 3#5 0x80000000#32) = true :=
  by decide

/-- Section 2.2 or program P5. -/
theorem test_srli :
    holds (exec (.srli 3#5 1#5 28#5) (regs12 0x100#32 0xFFFFFFFF#32 0#32)) (gives 3#5 0x0000000F#32) = true :=
  by decide

/-- Section 2.2 or program P5. -/
theorem test_srai :
    holds (exec (.srai 3#5 1#5 4#5) (regs12 0x100#32 0xF0000000#32 0#32)) (gives 3#5 0xFF000000#32) = true :=
  by decide

/-- Program P2. -/
theorem test_lui : holds (exec (.lui 5#5 0x80008#20) (regs12 0#32 7#32 7#32)) (gives 5#5 0x80008000#32) = true := by decide

/-- Program P5. -/
theorem test_auipc : holds (exec (.auipc 14#5 1#20) (regs12 0x48#32 7#32 7#32)) (gives 14#5 0x1048#32) = true := by decide

/-- Program P3: the link register, and no redirect. -/
theorem test_jal :
    holds (exec (.jal 1#5 0x18#21) (regs12 8#32 0#32 0#32)) (fun t => gives 1#5 0xC#32 t && resolved true 0xC#32 none t) = true :=
  by decide

/-- X-4 with bit 0 of the target set: it is cleared, and register 0 keeps 0. -/
theorem test_jalr :
    holds (exec (.jalr 0#5 1#5 0#12) (regs12 0x30#32 0xD#32 0#32)) (fun t => resolved true 0x34#32 (some 0xC#32) t && t.readReg 0#5 == 0#32) = true :=
  by decide

/-- Program P5. -/
theorem test_beq :
    holds (exec (.beq 1#5 2#5 8#13) (regs12 0x20#32 0x00000001#32 0x00000001#32)) (resolved true 0x28#32 (some 0x28#32)) = true :=
  by decide

/-- Program P5. -/
theorem test_bne :
    holds (exec (.bne 1#5 2#5 8#13) (regs12 0x20#32 0x00000003#32 0x00000000#32)) (resolved true 0x28#32 (some 0x28#32)) = true :=
  by decide

/-- Program P5. -/
theorem test_blt :
    holds (exec (.blt 1#5 2#5 8#13) (regs12 0x20#32 0xFFFFFFFF#32 0x00000001#32)) (resolved true 0x28#32 (some 0x28#32)) = true :=
  by decide

/-- Program P5. -/
theorem test_bge :
    holds (exec (.bge 1#5 2#5 8#13) (regs12 0x20#32 0x00000001#32 0xFFFFFFFF#32)) (resolved true 0x28#32 (some 0x28#32)) = true :=
  by decide

/-- Program P5. -/
theorem test_bltu :
    holds (exec (.bltu 1#5 2#5 8#13) (regs12 0x20#32 0xFFFFFFFF#32 0x00000001#32)) (resolved false 0x28#32 none) = true :=
  by decide

/-- Program P5. -/
theorem test_bgeu :
    holds (exec (.bgeu 1#5 2#5 8#13) (regs12 0x20#32 0xFFFFFFFF#32 0x00000001#32)) (resolved true 0x28#32 (some 0x28#32)) = true :=
  by decide

/-- Section 3.3, the address from a negative offset. -/
theorem test_lb :
    holds (exec (.lb 3#5 1#5 0xFFF#12) (withBytes (regs12 0#32 0x00000202#32 0#32))) (gives 3#5 0xFFFFFF80#32) = true :=
  by decide

/-- Section 3.3, the address from a negative offset. -/
theorem test_lbu :
    holds (exec (.lbu 3#5 1#5 0xFFF#12) (withBytes (regs12 0#32 0x00000202#32 0#32))) (gives 3#5 0x00000080#32) = true :=
  by decide

/-- Section 3.3, the address from a negative offset. -/
theorem test_lh :
    holds (exec (.lh 3#5 1#5 0xFFE#12) (withBytes (regs12 0#32 0x00000202#32 0#32))) (gives 3#5 0xFFFF80FF#32) = true :=
  by decide

/-- Section 3.3, the address from a negative offset. -/
theorem test_lhu :
    holds (exec (.lhu 3#5 1#5 0xFFE#12) (withBytes (regs12 0#32 0x00000202#32 0#32))) (gives 3#5 0x000080FF#32) = true :=
  by decide

/-- Section 3.3, the address from a negative offset. -/
theorem test_lw :
    holds (exec (.lw 3#5 1#5 0xFFE#12) (withBytes (regs12 0#32 0x00000202#32 0#32))) (gives 3#5 0x800080FF#32) = true :=
  by decide

/-- R110 to R112 on the bytes of section 3.3; the immediate 0xFFF fills both of its fields. -/
theorem test_sb :
    holds (exec (.sb 1#5 2#5 0xFFF#12) (withBytes (regs12 0#32 0x202#32 0x11223344#32))) (fun t => bytesAt 0x200#32 [0xFF#8, 0x44#8, 0#8, 0x80#8] t && t.readReg 31#5 == 0#32 && t.out.wbRd == 0#5) = true :=
  by decide

/-- R110 to R112 on the bytes of section 3.3; the immediate 0xFFF fills both of its fields. -/
theorem test_sh :
    holds (exec (.sh 1#5 2#5 0xFFF#12) (withBytes (regs12 0#32 0x202#32 0x11223344#32))) (fun t => bytesAt 0x200#32 [0xFF#8, 0x44#8, 0x33#8, 0x80#8] t && t.readReg 31#5 == 0#32 && t.out.wbRd == 0#5) = true :=
  by decide

/-- R110 to R112 on the bytes of section 3.3; the immediate 0xFFF fills both of its fields. -/
theorem test_sw :
    holds (exec (.sw 1#5 2#5 0xFFF#12) (withBytes (regs12 0#32 0x202#32 0x11223344#32))) (fun t => bytesAt 0x200#32 [0xFF#8, 0x44#8, 0x33#8, 0x22#8, 0x11#8] t && t.readReg 31#5 == 0#32 && t.out.wbRd == 0#5) = true :=
  by decide

/-- R40: FENCE does nothing. -/
theorem test_fence :
    holds (exec (.fence 0#4 15#4 15#4 1#5 3#5) (withBytes (regs12 0#32 5#32 6#32))) (fun t => t.readReg 3#5 == 0#32 && t.mem == (withBytes State.reset).mem && !t.out.redirect) = true :=
  by decide

/-- Section 3.4. -/
theorem test_csrrw :
    holds (exec (.csrrw 3#5 1#5 0xC00#12) (withCounters (regs12 0#32 0x00000005#32 0#32))) (gives 3#5 0x00000005#32) = true :=
  by decide

/-- Section 3.4. -/
theorem test_csrrw_2 :
    faults (exec (.csrrw 3#5 1#5 0xC00#12) (withCounters (regs12 0#32 0x00000006#32 0#32))) (.fatal .csrWriteReadonly) = true :=
  by decide

/-- Section 3.4. -/
theorem test_csrrs :
    holds (exec (.csrrs 3#5 0#5 0xC80#12) (withCounters (regs12 0#32 0x00000000#32 0#32))) (gives 3#5 0x00000001#32) = true :=
  by decide

/-- Section 3.4. -/
theorem test_csrrs_2 :
    faults (exec (.csrrs 3#5 0#5 0x341#12) (withCounters (regs12 0#32 0x00000000#32 0#32))) (.fatal .csrReadUnmapped) = true :=
  by decide

/-- Section 3.4. -/
theorem test_csrrc :
    holds (exec (.csrrc 3#5 0#5 0xC00#12) (withCounters (regs12 0#32 0x00000000#32 0#32))) (gives 3#5 0x00000005#32) = true :=
  by decide

/-- Section 3.4. -/
theorem test_csrrwi :
    holds (exec (.csrrwi 3#5 0#5 0x340#12) (withCounters (regs12 0#32 0x00000000#32 0#32))) (gives 3#5 0x00000000#32) = true :=
  by decide

/-- Section 3.4. -/
theorem test_csrrsi :
    holds (exec (.csrrsi 3#5 1#5 0xC00#12) (withCounters (regs12 0#32 0x00000000#32 0#32))) (gives 3#5 0x00000005#32) = true :=
  by decide

/-- Section 3.4. -/
theorem test_csrrsi_2 :
    faults (exec (.csrrsi 3#5 2#5 0xC00#12) (withCounters (regs12 0#32 0x00000000#32 0#32))) (.fatal .csrWriteReadonly) = true :=
  by decide

/-- Section 3.4. -/
theorem test_csrrci :
    faults (exec (.csrrci 3#5 1#5 0xC80#12) (withCounters (regs12 0#32 0x00000000#32 0#32))) (.fatal .csrWriteReadonly) = true :=
  by decide

/-- R120: the zimm clears a bit that is 0 already, so nothing is written. -/
theorem test_csrrci_2 :
    holds (exec (.csrrci 3#5 2#5 0xC00#12) (withCounters (regs12 0#32 0#32 0#32))) (gives 3#5 5#32) = true :=
  by decide

/-- R58. -/
theorem test_refused_rows :
    (([(.div 3#5 1#5 2#5, "DIV"), (.divu 3#5 1#5 2#5, "DIVU"), (.rem 3#5 1#5 2#5, "REM"), (.remu 3#5 1#5 2#5, "REMU"), (.ecall, "ECALL"), (.ebreak, "EBREAK"), (.fenceI 0#5 0#5 0#12, "FENCE.I")] : List (Instr × String)).all fun p => refuses (exec p.1 (regs12 0#32 1#32 1#32)) (.noBundle p.2)) = true :=
  by decide

/-! ### The predictor, fetch and the step -/

/-- P-1, Predict after update 6; another tag misses. -/
theorem test_predict_hit :
    (([0x1000#32, 0x2000#32].map fun pc => ({ State.reset with bhr := 0xF#32, bht := [(15, 2#2), (7, 3#2)], btb := [(0, { valid := true, tag := 0x40#32, target := 0x2000#32 })] } : State).predict pc) == [0x2000#32, 0x2004#32]) = true :=
  by decide

/-- P-4: the phantom hit of the XOR install. -/
theorem test_predict_phantom :
    ((({ State.reset with bhr := 1#32, bht := [(2, 2#2)] } : State).update true 0x1000#32 0x2000#32 true).predict 0x1004#32) = 0x2000#32 :=
  by decide

/-- P-5: no phantom hit under PC_ONLY. -/
theorem test_predict_pcOnly :
    ((({ State.reset with cfg := { Config.suggested with btbInstall := .pcOnly }, bhr := 1#32, bht := [(2, 2#2)] } : State).update true 0x1000#32 0x2000#32 true).predict 0x1004#32) = 0x1008#32 :=
  by decide

/-- P-3. -/
theorem test_update_shift :
    ([(0#32, true, 1#32), (0xE#32, true, 0xD#32), (0xF#32, false, 0xE#32), (8#32, false, 0#32)].all fun p => (({ State.reset with bhr := p.1 } : State).update true 0#32 0#32 p.2.1).bhr == p.2.2) = true :=
  by decide

/-- P1, first row: a word in memory at RESET_PC runs as the first instruction. -/
theorem test_step_word :
    holds (step ((State.resetWith Config.suggested).placeWord 0#32 0x00400093#32)) (fun t => t.readReg 1#5 == 4#32 && t.fetchPc == 4#32 && t.inflight == []) = true :=
  by decide

/-- X-1: a delivered bundle runs, redirects and flushes. -/
theorem test_step_bundle :
    holds (step (({ State.reset with fetchPc := 0x1000#32 } : State).withFetchWord 64 0x0000100010402831)) (fun t => resolved true 0x2000#32 (some 0x2000#32) t && t.inflight == []) = true :=
  by decide

/-- Section 3.7, first row. -/
theorem test_step_flush :
    holds (step { State.reset with fetchPc := 0x1008#32, fetchStall := true, schedule := [.execute], inflight := [{ pc := 0x1000#32, item := .bundle 0x0000100010402831#64, source := .values 5#32 5#32 }, { pc := 0x1004#32, item := .word 0x00000013#32, source := .regFile }] }) (fun t => t.fetchPc == 0x2000#32 && !t.fetchStall && t.inflight == []) = true :=
  by decide

/-- With no program placed the first word is 0, which is no RV32 row (log 8, log 9). -/
theorem test_step_empty : refuses (step State.reset) (.undecodable .compressed) = true := by decide

/-- R160: the instruction's last byte was stored to since the last flush. -/
theorem test_step_modified :
    refuses (step { (State.reset.placeWord 0#32 0x00400093#32) with modified := [(3, true)] }) (.modifiedInstruction 0#32) = true :=
  by decide

/-- R33. -/
theorem test_step_misaligned : refuses (step { State.reset with fetchPc := 2#32 }) (.misalignedFetch 2#32) = true := by decide

/-- R82: pc + 4 wraps. -/
theorem test_step_wraps_pc :
    holds (step (({ State.reset with fetchPc := 0xFFFFFFFC#32 } : State).withFetchWord 32 0x00000013)) (fun t => t.fetchPc == 0#32) = true :=
  by decide

/-! ### For each statement with hypotheses, a state and operands that meet them -/

/-- A BEQ bundle of X-1. -/
def x1 : Bundle := { emptyBundle with aluOp := 1#4, op1Pc := true, op2Imm := true, brOp := 3#4, rs1 := 1#5, rs2 := 2#5, imm := 0x1000#32 }

/-- A CSR bundle at an address. -/
def csrAt (a : Word) : Bundle := { emptyBundle with aluOp := 4#4, isCsr := true, rd := 3#5, imm := a }

/-- The reset state under the fallthrough predictor. -/
def fallthrough : State := State.resetWith { Config.suggested with predictor := .fallthrough }

/-- A state with one word fetched. -/
def fetchedOne (s : State) (w : BitVec 32) : State :=
  { s with fetchPc := 4#32, inflight := [{ pc := 0#32, item := .word w, source := .regFile }] }

/-- O1: a jump with its largest field, a store with func3[2] set, a reserved row. -/
theorem witness_DecodeEncodeRoundTrip :
    (Instr.jal 1#5 0x1FFFFE#21).wf = true ∧ (Instr.memSb { emptyBundle with func3 := 4#3, isStore := true }).wf = true ∧ (Instr.brReserved9 { emptyBundle with brOp := 9#4 }).wf = true :=
  by decide

/-- O2: a word and a bundle that decode. -/
theorem witness_EncodeDecodeRoundTrip :
    decode (.word 0xFE009CE3#32) = .ok (.bne 1#5 0#5 0x1FF8#13) ∧ decode (.bundle 0xF0#64) = .ok (.brReserved15 { emptyBundle with brOp := 15#4 }) :=
  ⟨rfl, rfl⟩

/-- O4: ECALL and the word 0 match no row. -/
theorem witness_OffTableWordsAreRefused :
    (rv32Rows.all fun r => 0x00000073#32 &&& r.2 != r.1) = true ∧ (rv32Rows.all fun r => 0x00000000#32 &&& r.2 != r.1) = true :=
  by decide

/-- O5: P1's first word matches a row. -/
theorem witness_TableWordsDecode : ∃ r ∈ rv32Rows, 0x00400093#32 &&& r.2 = r.1 := by decide

/-- O6: a row that is not the bundle's canonical name, and a well-formed ill-formed-class row. -/
theorem witness_RowNamesAgree :
    nativeBundle (.aluAdd x1) = some (x1.asAlu 1#4) ∧ isIllegalRow (.aluAdd x1) = false ∧ nativeBundle (.illegalLoadStore { emptyBundle with isLoad := true, isStore := true }) = some { emptyBundle with isLoad := true, isStore := true } ∧ (Instr.illegalLoadStore { emptyBundle with isLoad := true, isStore := true }).wf = true :=
  ⟨rfl, rfl, rfl, rfl⟩

/-- AluArithmeticLogicRows. -/
theorem witness_AluArithmeticLogicRows :
    (inputs 0x100#32 5#32 6#32).fatal = false ∧ rd3.noClass = true ∧ rd3.brOp = 0#4 :=
  by decide

/-- AluShiftCompareRows. -/
theorem witness_AluShiftCompareRows : (inputs 0x100#32 5#32 6#32).fatal = false ∧ rd3.noClass = true ∧ rd3.brOp = 0#4 := by decide

/-- AluMultiplyRows. -/
theorem witness_AluMultiplyRows : (inputs 0x100#32 5#32 6#32).fatal = false ∧ rd3.noClass = true ∧ rd3.brOp = 0#4 := by decide

/-- ReservedRowsStop. -/
theorem witness_ReservedRowsStop : (inputs 0#32 5#32 0#32).fatal = false := by decide

/-- NoneAndPassRows. -/
theorem witness_NoneAndPassRows :
    (inputs 0#32 5#32 0#32).fatal = false ∧ (addImm 7#32).noClass = true ∧ (addImm 7#32).brOp = 0#4 ∧ compute (addImm 7#32) (inputs 0#32 5#32 0#32).ports = .ok 12#32 :=
  ⟨rfl, rfl, rfl, rfl⟩

/-- JalRow. -/
theorem witness_JalRow :
    (inputs 0x1000#32 5#32 5#32).fatal = false ∧ x1.noClass = true ∧ compute x1 (inputs 0x1000#32 5#32 5#32).ports = .ok 0x2000#32 :=
  ⟨rfl, rfl, rfl⟩

/-- JalrRow. -/
theorem witness_JalrRow :
    (inputs 0x1000#32 5#32 5#32).fatal = false ∧ x1.noClass = true ∧ compute x1 (inputs 0x1000#32 5#32 5#32).ports = .ok 0x2000#32 :=
  ⟨rfl, rfl, rfl⟩

/-- ConditionalBranchRows. -/
theorem witness_ConditionalBranchRows :
    (inputs 0x1000#32 5#32 5#32).fatal = false ∧ x1.noClass = true ∧ compute x1 (inputs 0x1000#32 5#32 5#32).ports = .ok 0x2000#32 :=
  ⟨rfl, rfl, rfl⟩

/-- RedirectUnderFallthroughCompare: a redirecting transaction under FALLTHROUGH_COMPARE. -/
theorem witness_RedirectUnderFallthroughCompare :
    ((inputs 0x1000#32 5#32 5#32).cfg.redirectPolicy = .fallthroughCompare) ∧ ∃ t, exec (.brBeq x1) (inputs 0x1000#32 5#32 5#32) = .next t ∧ (fun t => t.out.redirect) t = true :=
  ⟨by decide, exists_next (by decide)⟩

/-- RedirectIsIndivisible: a redirecting transaction under FALLTHROUGH_COMPARE. -/
theorem witness_RedirectIsIndivisible :
    ((inputs 0x1000#32 5#32 5#32).cfg.redirectPolicy = .fallthroughCompare) ∧ ∃ t, exec (.brBeq x1) (inputs 0x1000#32 5#32 5#32) = .next t ∧ (fun t => t.out.redirect) t = true :=
  ⟨by decide, exists_next (by decide)⟩

/-- One that does not redirect, which also meets the last clause of RedirectIsIndivisible. -/
theorem witness_RedirectUnderFallthroughCompare_none :
    ∃ t, exec (.brBeq x1) (inputs 0x1000#32 5#32 6#32) = .next t ∧ (fun t => !t.out.redirect) t = true :=
  exists_next (by decide)

/-- A redirect under PREDICTION_COMPARE. -/
theorem witness_RedirectUnderPredictionCompare :
    ((comparing 0x1004#32 (inputs 0x1000#32 5#32 5#32)).cfg.redirectPolicy = .predictionCompare) ∧ ∃ t, exec (.brBeq x1) (comparing 0x1004#32 (inputs 0x1000#32 5#32 5#32)) = .next t ∧ (fun t => t.out.redirect && t.out.taken) t = true :=
  ⟨by decide, exists_next (by decide)⟩

/-- A taken JALR word to 5 with bit 0 cleared. -/
theorem witness_RedirectUnderPredictionCompare_word :
    ((comparing 4#32 (regs12 0#32 6#32 0#32)).cfg.redirectPolicy = .predictionCompare) ∧ ∃ t, exec (.jalr 3#5 1#5 0xFFF#12) (comparing 4#32 (regs12 0#32 6#32 0#32)) = .next t ∧ (fun t => !t.out.redirect && t.out.taken && t.out.redirectPc == 4#32 && jumpTargetOf (.jalr 3#5 1#5 0xFFF#12) (comparing 4#32 (regs12 0#32 6#32 0#32)) == some 4#32) t = true :=
  ⟨by decide, exists_next (by decide)⟩

/-- No redirect, not taken. -/
theorem witness_RedirectUnderPredictionCompare_none :
    ∃ t, exec (.pass rd3) (comparing 0x1004#32 (inputs 0x1000#32 5#32 5#32)) = .next t ∧ (fun t => !t.out.redirect && !t.out.taken) t = true :=
  exists_next (by decide)

/-- A branch: its second clause. -/
theorem witness_OneUpdatePerBranch :
    (branchOpOf (.brBeq x1) ≠ 0#4) ∧ ∃ t, exec (.brBeq x1) (inputs 0x1000#32 5#32 5#32) = .next t ∧ (fun t => t.out.taken) t = true :=
  ⟨by decide, exists_next (by decide)⟩

/-- No branch: its first clause. -/
theorem witness_OneUpdatePerBranch_none :
    (branchOpOf (.sw 1#5 2#5 0#12) = 0#4) ∧ ∃ t, exec (.sw 1#5 2#5 0#12) (regs12 0#32 0x200#32 7#32) = .next t ∧ (fun t => !t.out.taken) t = true :=
  ⟨by decide, exists_next (by decide)⟩

/-- LoadRows, at an address whose word wraps. -/
theorem witness_LoadRows :
    (withBytes (inputs 0#32 0xFFFFFFFE#32 0#32)).fatal = false ∧ compute (addImm 0#32) (withBytes (inputs 0#32 0xFFFFFFFE#32 0#32)).ports = .ok 0xFFFFFFFE#32 :=
  ⟨rfl, rfl⟩

/-- StoreRows, at both ends of the console range and just outside each. -/
theorem witness_StoreRows :
    ([0xEFFFFFFF#32, 0xF0000000#32, 0xF00000FF#32, 0xF0000100#32].all fun a => !(inputs 0#32 a 7#32).fatal && (match compute (addImm 0#32) (inputs 0#32 a 7#32).ports with | .ok v => v == a | .error _ => false) && Config.inConsole Config.suggested a == (a == 0xF0000000#32 || a == 0xF00000FF#32)) = true :=
  by decide

/-- ConsoleRouting, at both ends of the console range and just outside each. -/
theorem witness_ConsoleRouting :
    ([0xEFFFFFFF#32, 0xF0000000#32, 0xF00000FF#32, 0xF0000100#32].all fun a => !(inputs 0#32 a 7#32).fatal && (match compute (addImm 0#32) (inputs 0#32 a 7#32).ports with | .ok v => v == a | .error _ => false) && Config.inConsole Config.suggested a == (a == 0xF0000000#32 || a == 0xF00000FF#32)) = true :=
  by decide

/-- LoadSeesLastStore, where the store goes to memory. -/
theorem witness_LoadSeesLastStore :
    ∃ t u, exec (.sw 1#5 2#5 0#12) (regs12 0#32 0x200#32 0x11223344#32) = .next t ∧ exec (.lw 3#5 1#5 0#12) t = .next u ∧ t.readReg 1#5 = 0x200#32 ∧ Config.inConsole (regs12 0#32 0x200#32 0x11223344#32).cfg 0x200#32 = false :=
  ⟨_, _, rfl, rfl, rfl, rfl⟩

/-- LoadSeesLastStore, where the store goes to the console. -/
theorem witness_LoadSeesLastStore_console :
    ∃ t u, exec (.sw 1#5 2#5 0#12) (regs12 0#32 0xF0000000#32 0x11223344#32) = .next t ∧ exec (.lw 3#5 1#5 0#12) t = .next u ∧ t.readReg 1#5 = 0xF0000000#32 ∧ Config.inConsole (regs12 0#32 0xF0000000#32 0x11223344#32).cfg 0xF0000000#32 = true :=
  ⟨_, _, rfl, rfl, rfl, rfl⟩

/-- A store whose bytes wrap, with an address outside them: MemoryFrame's last clause. -/
theorem witness_MemoryFrame :
    (storeTargetOf (.sw 1#5 2#5 0#12) (regs12 0#32 0xFFFFFFFE#32 0x11223344#32) = some (0xFFFFFFFE#32, .word) ∧ inAccess 0xFFFFFFFE#32 .word 2#32 = false) ∧ ∃ t, exec (.sw 1#5 2#5 0#12) (regs12 0#32 0xFFFFFFFE#32 0x11223344#32) = .next t ∧ (fun t => t.console == []) t = true :=
  ⟨by decide, exists_next (by decide)⟩

/-- MemoryFrame: a form that stores nothing. -/
theorem witness_MemoryFrame_none :
    (storeTargetOf (.add 3#5 1#5 2#5) (regs12 0#32 1#32 2#32) = none ∧ (4#5 ≠ destinationOf (.add 3#5 1#5 2#5)) ∧ destinationOf (.add 3#5 1#5 2#5) ≠ 0#5) ∧ ∃ t, exec (.add 3#5 1#5 2#5) (regs12 0#32 1#32 2#32) = .next t ∧ (fun t => t.readReg 3#5 == 3#32) t = true :=
  ⟨by decide, exists_next (by decide)⟩

/-- RegisterFrame: a form that stores nothing. -/
theorem witness_RegisterFrame :
    (storeTargetOf (.add 3#5 1#5 2#5) (regs12 0#32 1#32 2#32) = none ∧ (4#5 ≠ destinationOf (.add 3#5 1#5 2#5)) ∧ destinationOf (.add 3#5 1#5 2#5) ≠ 0#5) ∧ ∃ t, exec (.add 3#5 1#5 2#5) (regs12 0#32 1#32 2#32) = .next t ∧ (fun t => t.readReg 3#5 == 3#32) t = true :=
  ⟨by decide, exists_next (by decide)⟩

/-- BlockFrame: a form that stores nothing. -/
theorem witness_BlockFrame :
    (storeTargetOf (.add 3#5 1#5 2#5) (regs12 0#32 1#32 2#32) = none ∧ (4#5 ≠ destinationOf (.add 3#5 1#5 2#5)) ∧ destinationOf (.add 3#5 1#5 2#5) ≠ 0#5) ∧ ∃ t, exec (.add 3#5 1#5 2#5) (regs12 0#32 1#32 2#32) = .next t ∧ (fun t => t.readReg 3#5 == 3#32) t = true :=
  ⟨by decide, exists_next (by decide)⟩

/-- CsrFile: an inert, a counter and an unmapped address. -/
theorem witness_CsrFile :
    State.reset.cfg.wf = true ∧ 0x340#32 ∈ State.reset.cfg.csrInert ∧ 0xC82#32 ∈ State.reset.cfg.counterAddrs ∧ 0x341#32 ∉ State.reset.cfg.csrInert ∧ 0x341#32 ∉ State.reset.cfg.counterAddrs :=
  by decide

/-- CsrAccessRow: inert, unmapped, a counter with an equal and with a differing value. -/
theorem witness_CsrAccessRow :
    (inputs 0#32 5#32 0#32).fatal = false ∧ compute (csrAt 0x340#32) (inputs 0#32 5#32 0#32).ports = .ok 5#32 ∧ compute (csrAt 0x341#32) (inputs 0#32 5#32 0#32).ports = .ok 5#32 ∧ compute (csrAt 0xC00#32) (withCounters (inputs 0#32 5#32 0#32)).ports = .ok 5#32 ∧ (withCounters (inputs 0#32 5#32 0#32)).csrRead 0xC00#32 = .ok 5#32 ∧ (withCounters (inputs 0#32 6#32 0#32)).csrRead 0xC00#32 = .ok 5#32 ∧ compute (csrAt 0xC00#32) (withCounters (inputs 0#32 6#32 0#32)).ports = .ok 6#32 :=
  ⟨rfl, rfl, rfl, rfl, rfl, rfl, rfl⟩

/-- Rv32CsrResults: a counter, an inert and an unmapped address. -/
theorem witness_Rv32CsrResults :
    (withCounters (regs12 0#32 5#32 0#32)).fatal = false ∧ (withCounters (regs12 0#32 5#32 0#32)).csrRead ((0xC00#12).setWidth 32) = .ok 5#32 ∧ (withCounters (regs12 0#32 5#32 0#32)).csrRead ((0x340#12).setWidth 32) = .ok 0#32 ∧ (0x341#12).setWidth 32 ∉ (withCounters (regs12 0#32 5#32 0#32)).cfg.counterAddrs :=
  ⟨rfl, rfl, rfl, by decide⟩

/-- TicksAndQueries: each event is scheduled in some state, with counters that wrap. -/
theorem witness_TicksAndQueries :
    ([Event.cycleTick, .retireTick, .predict 0x1000#32, .stallSet, .stallRelease].all fun e => holds (step { State.reset with schedule := [e], cycle := 0xFFFFFFFFFFFFFFFF#64, instret := 0xFFFFFFFFFFFFFFFF#64 }) (fun t => t.schedule == [])) = true :=
  by decide

/-- PredictGshare. -/
theorem witness_PredictGshare : State.reset.cfg.wf = true ∧ State.reset.cfg.predictor = .gshare := by decide

/-- FallthroughPredictor. -/
theorem witness_FallthroughPredictor : fallthrough.cfg.predictor = .fallthrough := by decide

/-- UpdateEffects: both install indices. -/
theorem witness_UpdateEffects :
    State.reset.cfg.wf = true ∧ State.reset.cfg.predictor = .gshare ∧ State.reset.cfg.btbInstall = .xorHistory ∧ { Config.suggested with btbInstall := .pcOnly }.wf = true :=
  by decide

/-- IndexTagDeterminePc: B at both its bounds. -/
theorem witness_IndexTagDeterminePc :
    { Config.suggested with histBits := 1, btbIndexBits := 29 }.wf = true ∧ { Config.suggested with histBits := 30, btbIndexBits := 1 }.wf = true :=
  by decide

/-- ResetMeetsInvariant: a legal configuration, and one whose console range ends at 2^32. -/
theorem witness_ResetMeetsInvariant :
    { Config.suggested with histBits := 1, btbIndexBits := 29 }.wf = true ∧ { Config.suggested with mmioBase := 0xFFFFFFFF#32, mmioSize := 1 }.wf = true :=
  by decide

/-- HistoryAfterRuns: H calls. -/
theorem witness_HistoryAfterRuns :
    [(0x1000#32, 0x2000#32), (4#32, 8#32), (8#32, 0x10#32), (0xC#32, 0#32)].length = State.reset.cfg.histBits ∧ State.reset.cfg.wf = true ∧ State.reset.cfg.predictor = .gshare :=
  by decide

/-- InstalledEntryLookup: a zero and a non-zero masked history. -/
theorem witness_InstalledEntryLookup :
    State.reset.cfg.wf = true ∧ State.reset.cfg.predictor = .gshare ∧ State.reset.cfg.btbInstall = .xorHistory ∧ State.reset.bhr.toNat % 2 ^ State.reset.cfg.btbIndexBits = 0 ∧ ({ State.reset with bhr := 1#32 } : State).bhr.toNat % 2 ^ State.reset.cfg.btbIndexBits ≠ 0 :=
  by decide

/-- FatalPriority: a bundle for each cause, and one with none. -/
theorem witness_FatalPriority :
    (([({ rd3 with isLoad := true, isStore := true, aluOp := 15#4 }, some .illegalBundle), ({ rd3 with aluOp := 15#4, brOp := 9#4 }, some .badAluOp), ({ rd3 with brOp := 9#4 }, some .badBranchOp), ({ rd3 with isLoad := true, func3 := 3#3 }, some .badMemWidth), (csrAt 0x341#32, some .csrReadUnmapped), (csrAt 0xC00#32, some .csrWriteReadonly), (rd3, none)] : List (Bundle × Option FatalCause)).all fun p => fatalCauseOf p.1 (withCounters (inputs 0#32 6#32 0#32)) == p.2) = true :=
  by decide

/-- FatalLatchesItsCauseOnly: program P4. -/
theorem witness_FatalLatchesItsCauseOnly :
    exec (.csrrs 6#5 0#5 0x341#12) (regs12 8#32 0#32 0#32) = .fault (.fatal .csrReadUnmapped) :=
  rfl

/-- NoStepAfterFatal: a bundle row, an RV32 row, a refused row. -/
theorem witness_NoStepAfterFatal :
    (State.latchFatal .badAluOp State.reset).fatal = true ∧ isRefusedRow (.aluAdd rd3) = false ∧ isRefusedRow (.add 3#5 1#5 2#5) = false ∧ isRefusedRow .ecall = true :=
  ⟨rfl, rfl, rfl, rfl⟩

/-- Rv32RegisterOps: a state that no Fatal has ended. -/
theorem witness_Rv32RegisterOps : (regs12 0x100#32 1#32 2#32).fatal = false := by decide

/-- Rv32ImmediateOps: a state that no Fatal has ended. -/
theorem witness_Rv32ImmediateOps : (regs12 0x100#32 1#32 2#32).fatal = false := by decide

/-- Rv32Jumps: a state that no Fatal has ended. -/
theorem witness_Rv32Jumps : (regs12 0x100#32 1#32 2#32).fatal = false := by decide

/-- Rv32Branches: a state that no Fatal has ended. -/
theorem witness_Rv32Branches : (regs12 0x100#32 1#32 2#32).fatal = false := by decide

/-- Rv32Loads: a state that no Fatal has ended. -/
theorem witness_Rv32Loads : (regs12 0x100#32 1#32 2#32).fatal = false := by decide

/-- Rv32Stores: a state that no Fatal has ended. -/
theorem witness_Rv32Stores : (regs12 0x100#32 1#32 2#32).fatal = false := by decide

/-- StepRunsDecodedWord: P1's first word at RESET_PC. -/
theorem witness_StepRunsDecodedWord :
    (let s := State.reset.placeWord 0#32 0x00400093#32; s.fatal = false ∧ s.schedule = [] ∧ s.inflight = [] ∧ s.fetchStall = false ∧ s.fetchPc.toNat % 4 = 0 ∧ s.isModified s.fetchPc = false ∧ decode (.word (s.instrWord s.fetchPc)) = .ok (.addi 1#5 0#5 4#12)) :=
  ⟨rfl, rfl, rfl, rfl, rfl, rfl, rfl⟩

/-- StepRunsOldestInFlight: a bundle under an Execute event, a word with nothing scheduled. -/
theorem witness_StepRunsOldestInFlight :
    (let d : InFlight := { pc := 0x1000#32, item := .bundle 0x0000100010402831#64, source := .values 5#32 5#32 }; State.reset.fatal = false ∧ ({ State.reset with schedule := [.execute], inflight := [d] } : State).isModified d.pc = false ∧ decode d.item = .ok (.brBeq x1) ∧ (fetchedOne State.reset 0x00400093#32).schedule = [] ∧ (fetchedOne State.reset 0x00400093#32).isModified 0#32 = false) :=
  ⟨rfl, rfl, rfl, rfl, rfl⟩

/-- FetchEvent: each of its clauses. -/
theorem witness_FetchEvent :
    ([(0#32, false), (0#32, true), (0xFFFFFFFE#32, false)].all fun p => let s := { State.reset with schedule := [.fetch], fetchPc := p.1, fetchStall := p.2 }; !s.fatal && (if p.2 then holds (step s) (fun t => t.inflight == []) else if p.1 == 0#32 then holds (step s) (fun t => t.inflight.length == 1) else refuses (step s) (.misalignedFetch p.1))) = true :=
  by decide

/-- FetchEvent, a delivered bundle: a steered JAL, a BEQ, a JAL with no ALU result, a JAL with a class flag. -/
theorem witness_FetchEvent_bundle :
    ([({ x1 with brOp := 1#4 }, 0x1000#32), (x1, 4#32), ({ x1 with brOp := 1#4, aluOp := 15#4 }, 4#32), ({ x1 with brOp := 1#4, isLoad := true }, 4#32)].all fun p => holds (step { State.reset with schedule := [.fetchBundle (Bundle.pack p.1) .regFile] }) (fun t => t.inflight.length == 1 && t.fetchPc == p.2)) = true :=
  by decide

/-- FetchEvent, a bundle under a stall and at a misaligned fetch_pc. -/
theorem witness_FetchEvent_bundle_held :
    ([(0#32, true), (0xFFFFFFFE#32, false)].all fun p => let s := { State.reset with schedule := [.fetchBundle 0#64 (.values 1#32 2#32)], fetchPc := p.1, fetchStall := p.2 }; !s.fatal && (if p.2 then holds (step s) (fun t => t.inflight == []) else refuses (step s) (.misalignedFetch p.1))) = true :=
  by decide

/-- ModifiedInstructionIsRefused, first clause: the last byte. -/
theorem witness_ModifiedInstructionIsRefused :
    (let s := { fetchedOne State.reset 0x00400093#32 with modified := [(3, true)] }; s.fatal = false ∧ s.schedule = [] ∧ Sparse.get false (0#32 + BitVec.ofNat 32 3).toNat s.modified = true) :=
  ⟨rfl, rfl, rfl⟩

/-- Its first clause under an Execute event: the first byte. -/
theorem witness_ModifiedInstructionIsRefused_event :
    (let s := { fetchedOne State.reset 0x00400093#32 with modified := [(0, true)], schedule := [.execute] }; s.fatal = false ∧ s.schedule = [.execute] ∧ s.inflight ≠ [] ∧ Sparse.get false (0#32 + BitVec.ofNat 32 0).toNat s.modified = true) :=
  by decide

/-- Its third clause: a mark made before. -/
theorem witness_ModifiedInstructionIsRefused_mark :
    (Sparse.get false (0x100#32).toNat ({ regs12 0#32 1#32 2#32 with modified := [(0x100, true)] } : State).modified = true) ∧ ∃ t, exec (.add 3#5 1#5 2#5) { regs12 0#32 1#32 2#32 with modified := [(0x100, true)] } = .next t ∧ (fun t => !t.out.redirect) t = true :=
  ⟨by decide, exists_next (by decide)⟩

/-- Its second clause: the word that the step fetches. -/
theorem witness_ModifiedInstructionIsRefused_fetch :
    (let s := { State.reset with modified := [(3, true)] }; s.fatal = false ∧ s.schedule = [] ∧ s.inflight = [] ∧ s.fetchStall = false ∧ s.fetchPc.toNat % 4 = 0 ∧ Sparse.get false (s.fetchPc + BitVec.ofNat 32 3).toNat s.modified = true) :=
  by decide

/-- Its last clause, with a store that wraps. -/
theorem witness_ModifiedInstructionIsRefused_store :
    (storeTargetOf (.sw 1#5 2#5 0#12) (regs12 0#32 0xFFFFFFFE#32 7#32) = some (0xFFFFFFFE#32, .word) ∧ State.reset.cfg.instrSpace = .unified ∧ Config.inConsole State.reset.cfg 0xFFFFFFFE#32 = false ∧ inAccess 0xFFFFFFFE#32 .word 1#32 = true) ∧ ∃ t, exec (.sw 1#5 2#5 0#12) (regs12 0#32 0xFFFFFFFE#32 7#32) = .next t ∧ (fun t => !t.out.redirect) t = true :=
  ⟨by decide, exists_next (by decide)⟩

/-- StepKeepsInvariant. -/
theorem witness_StepKeepsInvariant :
    ((State.reset.placeWord 0#32 0x00400093#32).ok = true) ∧ ∃ t, step (State.reset.placeWord 0#32 0x00400093#32) = .next t ∧ (fun t => t.readReg 1#5 == 4#32) t = true :=
  ⟨by decide, exists_next (by decide)⟩

/-- StepKeepsConfigAndFatal. -/
theorem witness_StepKeepsConfigAndFatal :
    ((State.reset.placeWord 0#32 0x00400093#32).ok = true) ∧ ∃ t, step (State.reset.placeWord 0#32 0x00400093#32) = .next t ∧ (fun t => t.readReg 1#5 == 4#32) t = true :=
  ⟨by decide, exists_next (by decide)⟩

/-- A taken BEQ that fetch predicted to fall through. -/
theorem witness_SequentialUnderPredictionCompare :
    ((State.resetWith { Config.suggested with redirectPolicy := .predictionCompare }).schedule = [] ∧ (State.resetWith { Config.suggested with redirectPolicy := .predictionCompare }).fetchStall = false) ∧ ∃ t, step ((State.resetWith { Config.suggested with redirectPolicy := .predictionCompare }).placeWord 0#32 0x00000463#32) = .next t ∧ (fun t => t.out.taken && t.out.redirect && t.fetchPc == 8#32) t = true :=
  ⟨by decide, exists_next (by decide)⟩

/-- The same under an Execute event, with the BEQ in flight. -/
theorem witness_SequentialUnderPredictionCompare_event :
    ((comparing 0#32 (fetchedOne State.reset 0x00000463#32)).cfg.redirectPolicy = .predictionCompare ∧ (comparing 0#32 (fetchedOne State.reset 0x00000463#32)).inflight ≠ []) ∧ ∃ t, step { comparing 0#32 (fetchedOne State.reset 0x00000463#32) with schedule := [.execute] } = .next t ∧ (fun t => t.out.taken && t.out.redirect && t.nextFetched == 8#32) t = true :=
  ⟨by decide, exists_next (by decide)⟩

/-- A fetched JAL, steered. -/
theorem witness_FetchChainIsKept :
    (({ fallthrough.placeWord 0#32 0x018000EF#32 with schedule := [.fetch, .fetch] } : State).fetchChain = true ∧ noBundleFetch [.fetch, .fetch] = true ∧ fallthrough.cfg.jalSteering = true) ∧ ∃ t, step { fallthrough.placeWord 0#32 0x018000EF#32 with schedule := [.fetch, .fetch] } = .next t ∧ (fun t => t.fetchChain && t.fetchPc == 0x18#32) t = true :=
  ⟨by decide, exists_next (by decide)⟩

/-- An instruction in flight at pc 0, with fetch at 4. -/
theorem witness_SequentialWordsUnderFallthrough :
    ((fetchedOne fallthrough 0x00400093#32).fetchChain = true ∧ (fetchedOne fallthrough 0x00400093#32).schedule = [] ∧ (fetchedOne fallthrough 0x00400093#32).inflight ≠ []) ∧ ∃ t, step (fetchedOne fallthrough 0x00400093#32) = .next t ∧ (fun t => !t.out.taken && t.nextFetched == 4#32) t = true :=
  ⟨by decide, exists_next (by decide)⟩

/-- A taken BEQ in flight under an Execute event. -/
theorem witness_SequentialWordsUnderFallthrough_event :
    ((fetchedOne fallthrough 0x00000463#32).fetchChain = true ∧ (fetchedOne fallthrough 0x00000463#32).inflight ≠ [] ∧ fallthrough.cfg.redirectPolicy = .fallthroughCompare) ∧ ∃ t, step { fetchedOne fallthrough 0x00000463#32 with schedule := [.execute] } = .next t ∧ (fun t => t.out.taken && t.nextFetched == 8#32) t = true :=
  ⟨by decide, exists_next (by decide)⟩

/-- LiLoadsItsConstant: both ends of each clause. -/
theorem witness_LiLoadsItsConstant :
    ((([0xFFFFF800#32, 2047#32, 2048#32, 0xFFFFF7FF#32, 0x7FFFFFFF#32] : List Word).map fun v => ((Pseudo.li 5#5 v).expand Config.suggested).map List.length) == [some 1, some 1, some 2, some 2, some 2]) = true :=
  by decide

end Sys2Proof.Tests
end

section
/-! SUPPORT. The scope's statements settled: the machine's invariant under every step, the external events, the rows R58 refuses,
and what a step puts on the ports of the instruction it executes. -/

namespace Sys2Proof.Machine

/-! ### The invariant under each operation of a step -/

/-- The four parts of the invariant. -/
theorem ok_iff (s : State) :
    s.ok = true ↔ s.cfg.wf = true ∧ s.predictorOk = true ∧ s.memoriesOk = true ∧ s.fatalOk = true := by
  simp only [State.ok, Bool.and_eq_true, and_assoc]

/-- The three parts of the memories' form. -/
theorem memoriesOk_iff (s : State) : s.memoriesOk = true ↔
    Memory.wf s.mem = true ∧ Memory.wf s.imem = true ∧ Sparse.wf false (2 ^ 32) s.modified = true := by
  simp only [State.memoriesOk, Bool.and_eq_true, and_assoc]

/-- A flush, which forgets every mark (R160), and its absence both keep the memories' form. -/
theorem memoriesOk_of_flush {s t : State} {flush : Bool} (hm : t.mem = s.mem) (hi : t.imem = s.imem)
    (hd : t.modified = if flush then [] else s.modified) (h : s.memoriesOk = true) : t.memoriesOk = true := by
  obtain ⟨hmem, himem, hmod⟩ := (memoriesOk_iff s).mp h
  refine (memoriesOk_iff t).mpr ⟨hm ▸ hmem, hi ▸ himem, ?_⟩
  rw [hd]
  cases flush with
  | true => rfl
  | false => exact hmod

/-- A store keeps the memories' form: the bytes and the marks it adds lie below 2^32. -/
theorem storeTo_memoriesOk {s : State} (a : Word) (w : Width) (v : Word) (h : s.memoriesOk = true) :
    (s.storeTo a w v).memoriesOk = true := by
  obtain ⟨hmem, himem, hmod⟩ := (memoriesOk_iff s).mp h
  refine (memoriesOk_iff _).mpr ⟨storeTo_mem_wf a w v hmem, himem, ?_⟩
  rw [State.storeTo_modified]
  split
  · exact hmod
  · exact markModified_wf a _ hmod

theorem storeTo_ok {s : State} (a : Word) (w : Width) (v : Word) (h : s.ok = true) : (s.storeTo a w v).ok = true := by
  obtain ⟨hcfg, hpred, hmem, hfatal⟩ := (ok_iff s).mp h
  exact (ok_iff _).mpr ⟨hcfg, hpred, storeTo_memoriesOk a w v hmem, hfatal⟩

theorem afterNone_ok {s : State} (rd : RegIdx) (alu wb : Word) (h : s.ok = true) : (s.afterNone rd alu wb).ok = true := by
  obtain ⟨hcfg, hpred, hmem, hfatal⟩ := (ok_iff s).mp h
  exact (ok_iff _).mpr ⟨hcfg, hpred, memoriesOk_of_flush (s := s) rfl rfl (afterNone_modified ..) hmem, hfatal⟩

/-- A branch or jump leaves the predictor as its one Update leaves it (R89). -/
theorem afterBranch_predictorOk {s : State} (rd : RegIdx) (wb : Word) (taken may : Bool) (target : Word)
    (hcfg : s.cfg.wf = true) (h : s.predictorOk = true) : (s.afterBranch rd wb taken may target).predictorOk = true :=
  update_predictorOk hcfg h true s.ports.pc (if taken then target else fallthroughOf s.ports.pc) taken

theorem afterBranch_ok {s : State} (rd : RegIdx) (wb : Word) (taken may : Bool) (target : Word) (h : s.ok = true) :
    (s.afterBranch rd wb taken may target).ok = true := by
  obtain ⟨hcfg, hpred, hmem, hfatal⟩ := (ok_iff s).mp h
  exact (ok_iff _).mpr ⟨hcfg, afterBranch_predictorOk rd wb taken may target hcfg hpred,
    memoriesOk_of_flush (s := s) rfl rfl (afterBranch_modified ..) hmem, hfatal⟩

/-- The invariant does not read the ports. -/
theorem withOperands_ok {s : State} (v1 v2 : Word) (h : s.ok = true) : (s.withOperands v1 v2).ok = true := h

/-- The invariant reads neither the in-flight instructions nor `fetch_pc`. -/
theorem fetchItem_ok {s : State} (item : Fetched) (src : OperandSource) (h : s.ok = true) : (s.fetchItem item src).ok = true := h

/-- The invariant reads neither the in-flight instructions nor the counters nor the ports. -/
theorem issue_ok {s : State} (d : InFlight) (h : s.ok = true) : (s.dropOldest.issue d).ok = true := h

/-- Every instruction keeps the invariant: it ends as a transaction without a branch, after a store or not, or with one. -/
theorem exec_keeps_ok {i : Instr} {s t : State} (h : exec i s = .next t) (hs : s.ok = true) : t.ok = true := by
  obtain ⟨v1, v2, v, _, hc⟩ := exec_cases h
  have hw := withOperands_ok v1 v2 hs
  rcases hc with ⟨_, _, wb, rfl⟩ | ⟨_, w, _, rfl⟩ | ⟨_, _, _, tk, _, rfl⟩
  · exact afterNone_ok _ _ _ hw
  · exact afterNone_ok _ _ _ (storeTo_ok _ _ _ hw)
  · exact afterBranch_ok _ _ _ _ _ hw

/-- Settles O55: the invariant passes through each external action, which leaves what it reads, and through each instruction. -/
theorem stepKeepsInvariant : Obligations.StepKeepsInvariant := by
  intro s t hs h
  refine step_keeps (P := fun s => s.ok = true) ?sched ?cycle ?retire ?predict ?stall ?fetch ?issue ?exec h hs
  case sched => exact fun _ _ _ _ hp => hp
  case cycle => exact fun _ hp => hp
  case retire => exact fun _ hp => hp
  case predict => exact fun _ _ hp => hp
  case stall => exact fun _ _ hp => hp
  case fetch => exact fun _ item src hp => fetchItem_ok item src hp
  case issue => exact fun _ d _ _ hp => issue_ok d hp
  case exec => exact fun _ _ _ he hp => exec_keeps_ok he hp

/-! ### The external events -/

/-- One more on a counter, in numbers (R121). -/
theorem counter_succ (c : Counter) : c + 1#64 = BitVec.ofNat 64 (c.toNat + 1) := by
  rw [BitVec.ofNat_add, BitVec.ofNat_toNat, BitVec.setWidth_eq]

/-- Settles O32: with `fatal` = 0 a step makes the first event scheduled, and each event writes its one field. -/
theorem ticksAndQueries : Obligations.TicksAndQueries := by
  intro s rest pc hf
  refine ⟨fun hs => ?cycle, fun hs => ?retire, fun hs => ?predict, fun hs => ?set, fun hs => ?release⟩ <;>
    rw [step_of_event hf hs]
  case cycle => rw [← counter_succ]; rfl
  case retire => rw [← counter_succ]; rfl
  case predict => rfl
  case set => rfl
  case release => rfl

/-! ### The rows with no bundle -/

/-- Settles O42: the meaning of each of the seven rows is its refusal by name, whatever the state. -/
theorem refusedRowsStop : Obligations.RefusedRowsStop := by
  intro rd rs1 rs2 imm s
  exact ⟨rfl, rfl, rfl, rfl, rfl, rfl, rfl⟩

/-! ### The instruction a step executes -/

/-- An unmodified, decodable instruction that is the oldest in flight executes once it has left the in-flight list. -/
theorem runOldest_of_decoded {s : State} {d : InFlight} {ds : List InFlight} {i : Instr} (hi : s.inflight = d :: ds)
    (hm : s.isModified d.pc = false) (hd : decode d.item = .ok i) : runOldest s = exec i (s.dropOldest.issue d) := by
  have hm' : s.dropOldest.isModified d.pc = false := (isModified_congr (s := s) rfl d.pc).trans hm
  simp [runOldest, hi, runEntry, hm', hd]

/-- With an instruction in flight, an Execute event and an empty schedule both run the oldest. -/
theorem step_runs_oldest {s : State} {d : InFlight} {ds : List InFlight} {rest : List Event} (hf : s.fatal = false)
    (hs : s.schedule = .execute :: rest ∨ s.schedule = [] ∧ rest = []) (hi : s.inflight = d :: ds) :
    step s = runOldest { s with schedule := rest } := by
  rcases hs with hs | ⟨hs, rfl⟩
  · exact step_of_event hf hs
  · have he : ({ s with schedule := [] } : State) = s := by rw [← hs]
    rw [step_of_instruction hf hs, he, runInstruction, hi]

/-- The state the oldest in-flight instruction executes in (R11, R13, R86). -/
theorem issue_dropOldest {s : State} {d : InFlight} {ds : List InFlight} (hi : s.inflight = d :: ds) :
    s.dropOldest.issue d = { s with
      inflight := ds
      cycle := s.cycle + BitVec.ofNat 64 (Config.cycleTicks s.tickIndex)
      instret := s.instret + BitVec.ofNat 64 (Config.retireTicks s.tickIndex)
      tickIndex := s.tickIndex + 1
      ports := s.dropOldest.portsFor d } := by
  simp [State.issue, State.freeTicks, State.dropOldest, hi]

/-- Settles O50: the step is the execution of the oldest in-flight instruction, and the ports hold what its item's format and its
operand source say. -/
theorem stepRunsOldestInFlight : Obligations.StepRunsOldestInFlight := by
  intro s d ds rest i hf hs hi hm hd
  have hm' : ({ s with schedule := rest } : State).isModified d.pc = false := hm
  rw [step_runs_oldest hf hs hi, runOldest_of_decoded (s := { s with schedule := rest }) hi hm' hd,
    issue_dropOldest (s := { s with schedule := rest }) hi]
  obtain ⟨pc, item, source⟩ := d
  cases item with
  | word w => cases ds <;> simp [State.portsFor, State.nextFetched, State.dropOldest, hi]
  | bundle w =>
    cases source <;> cases ds <;>
      simp [State.portsFor, State.nextFetched, State.dropOldest, State.sourceValues, State.readReg, hi]

end Sys2Proof.Machine
end

section
/-! SUPPORT. The statements about the block's state settled: what an instruction and a step leave unchanged, the write-back,
the one Update, the fetched stream, and the halt. -/

namespace Sys2Proof.Machine

/-! ### A Fatal and the halt -/

/-- Settles O40: the outcome carries its cause, and the two status registers latch it. -/
theorem fatalLatchesItsCauseOnly : Obligations.FatalLatchesItsCauseOnly := by
  refine ⟨fun i s c h => ?latched, rfl⟩
  rw [h]
  rfl

/-- A transaction asked of a halted block is the fault `halted` (R137). -/
theorem execute_of_fatal {s : State} (hf : s.fatal = true) (b : Bundle) : execute b s = .fault (.halted s.fatalCause) := by
  rw [execute, if_pos hf]

/-- Every instruction with a transaction is the fault `halted` in a halted block. -/
theorem exec_of_fatal {i : Instr} {s : State} (hf : s.fatal = true) (hr : isRefusedRow i = false) :
    exec i s = .fault (.halted s.fatalCause) := by
  cases hn : nativeBundle i with
  | none =>
    obtain ⟨b, v1, v2, he⟩ := exec_word_runs hn hr s
    exact he.trans (execute_of_fatal (s := s.withOperands v1 v2) hf b)
  | some b =>
    cases hi : isIllegalRow i with
    | true => rw [exec_illegalRow hi, rejectClasses, if_pos hf]
    | false => rw [exec_native hn hi, execute_of_fatal hf]

/-- Settles O41: a step and a transaction both test `fatal` first, and the rows with no bundle are refused in every state. -/
theorem noStepAfterFatal : Obligations.NoStepAfterFatal := by
  intro s i hf
  refine ⟨step_of_fatal hf, fun t h => ?next, exec_of_fatal hf, fun hr => ?refused⟩
  case next =>
    obtain ⟨_, _, _, hf', _⟩ := exec_cases h
    simp [hf] at hf'
  case refused =>
    obtain ⟨n, hn⟩ := exec_refusedRow hr
    exact ⟨n, hn s⟩

/-! ### What an instruction leaves -/

/-- Settles O28: a transaction ends without a branch, after a store or not, or with one, and none of these writes the fields
named. -/
theorem blockFrame : Obligations.BlockFrame := by
  intro i s t h
  obtain ⟨v1, v2, v, _, hc⟩ := exec_cases h
  rcases hc with ⟨_, _, wb, rfl⟩ | ⟨_, w, _, rfl⟩ | ⟨_, _, _, tk, _, rfl⟩ <;>
    exact ⟨rfl, rfl, rfl, rfl, rfl, rfl, rfl, rfl, rfl, rfl⟩

/-- No instruction writes the separate instruction memory (R28 item 4). -/
theorem exec_imem {i : Instr} {s t : State} (h : exec i s = .next t) : t.imem = s.imem := by
  obtain ⟨v1, v2, v, _, hc⟩ := exec_cases h
  rcases hc with ⟨_, _, wb, rfl⟩ | ⟨_, w, _, rfl⟩ | ⟨_, _, _, tk, _, rfl⟩ <;> rfl

/-- The write-back of every instruction: `wb_value` at the register it names (D24). -/
theorem exec_writeBack {i : Instr} {s t : State} (h : exec i s = .next t) :
    t.out.wbRd = destinationOf i ∧ t.regs = s.regsWith (destinationOf i) t.out.wbValue := by
  obtain ⟨v1, v2, v, _, hc⟩ := exec_cases h
  rcases hc with ⟨_, _, wb, rfl⟩ | ⟨_, w, _, rfl⟩ | ⟨_, _, _, tk, _, rfl⟩ <;> exact ⟨rfl, rfl⟩

/-- Settles O27: the register file after an instruction is the one before with `wb_value` written back. -/
theorem registerFrame : Obligations.RegisterFrame := by
  intro i s t h
  obtain ⟨hrd, hregs⟩ := exec_writeBack h
  have hread := readReg_of_regsWith hregs
  refine ⟨readReg_zero t, hrd, fun r hr => ?other, fun h0 => ?destination⟩
  case other => rw [hread, if_neg fun hc => hr hc.1]
  case destination => rw [hread, if_pos ⟨rfl, h0⟩]

/-- The next address of a branch or jump, read off its outputs: under either policy a taken one drives its target on
`redirect_pc` (R85, R86). -/
theorem afterBranch_nextPc {s t : State} {rd : RegIdx} {wb target : Word} {taken may : Bool}
    (ht : t = s.afterBranch rd wb taken may target) :
    (if t.out.taken then t.out.redirectPc else s.ports.pc + 4#32) = if taken then target else fallthroughOf s.ports.pc := by
  subst ht
  cases taken with
  | false => rfl
  | true => simp [State.afterBranch]

/-- Settles O19: only a branch or jump updates the predictor, once, with its outcome and the address that follows it. -/
theorem oneUpdatePerBranch : Obligations.OneUpdatePerBranch := by
  intro i s t h
  obtain ⟨v1, v2, v, _, hc⟩ := exec_cases h
  rcases hc with ⟨h0, _, wb, rfl⟩ | ⟨h0, w, _, rfl⟩ | ⟨h0, _, _, tk, _, ht⟩
  · exact ⟨fun _ => ⟨rfl, rfl, rfl⟩, fun hn => absurd h0 hn⟩
  · exact ⟨fun _ => ⟨rfl, rfl, rfl⟩, fun hn => absurd h0 hn⟩
  · refine ⟨fun hn => absurd hn h0, fun _ => ?_⟩
    have hnext : (if t.out.taken then t.out.redirectPc else s.ports.pc + 4#32) =
        if tk then targetOf (branchOpOf i) v else fallthroughOf s.ports.pc :=
      afterBranch_nextPc (s := s.withOperands v1 v2) ht
    rw [hnext, ht]
    exact ⟨rfl, rfl, rfl⟩

/-- An instruction either leaves the stream fetch delivers, or flushes it (R87). -/
theorem exec_stream {i : Instr} {s t : State} (h : exec i s = .next t) :
    t.fetchPc = s.fetchPc ∧ t.inflight = s.inflight ∨ t.inflight = [] := by
  obtain ⟨v1, v2, v, _, hc⟩ := exec_cases h
  cases hr : t.out.redirect <;>
    rcases hc with ⟨_, _, wb, rfl⟩ | ⟨_, w, _, rfl⟩ | ⟨_, _, _, tk, _, rfl⟩ <;> simp [hr]

/-! ### What a step leaves -/

/-- A property of states that holds once the first event is taken from the schedule, and that each external action and each
execution keeps, holds after the step. -/
theorem step_keeps_after_event {P : State → Prop} {s t : State}
    (hcycle : ∀ u, P u → P u.cycleTick) (hretire : ∀ u, P u → P u.retireTick)
    (hpredict : ∀ u v, P u → P { u with predictOut := v }) (hstall : ∀ u v, P u → P { u with fetchStall := v })
    (hword : ∀ u w, P u → P (u.fetchItem (.word w) .regFile))
    (hbundle : ∀ u w src rest, s.schedule = .fetchBundle w src :: rest → P u → P (u.fetchItem (.bundle w) src))
    (hrun : ∀ u d ds i t, u.inflight = d :: ds → exec i (u.dropOldest.issue d) = .next t → P u → P t)
    (h : step s = .next t) (hp : P { s with schedule := s.schedule.tail }) : P t := by
  have hold : ∀ {u}, runOldest u = .next t → P u → P t := by
    intro u h hp
    rcases runOldest_next h with ⟨_, rfl⟩ | ⟨d, ds, i, hi, _, _, he⟩
    · exact hp
    · exact hrun u d ds i t hi he hp
  have htry : ∀ {u item src}, (P u → P (u.fetchItem item src)) → u.tryFetch item src = .next t → P u → P t := by
    intro u item src hfetch h hp
    rcases tryFetch_next h with ⟨_, rfl⟩ | ⟨_, _, rfl⟩
    · exact hp
    · exact hfetch hp
  obtain ⟨_, ⟨e, rest, hs, he⟩ | ⟨hs, he⟩⟩ := step_next h
  · rw [hs, List.tail_cons] at hp
    cases e <;> simp only [runEvent] at he
    case cycleTick => injection he with he; exact he ▸ hcycle _ hp
    case retireTick => injection he with he; exact he ▸ hretire _ hp
    case predict pc => injection he with he; exact he ▸ hpredict _ _ hp
    case fetch => exact htry (hword _ _) he hp
    case fetchBundle w src => exact htry (hbundle _ w src rest hs) he hp
    case execute => exact hold he hp
    case stallSet => injection he with he; exact he ▸ hstall _ _ hp
    case stallRelease => injection he with he; exact he ▸ hstall _ _ hp
  · have hp' : P s := by rwa [hs, List.tail_nil, ← hs] at hp
    rcases runInstruction_next he with ⟨_, he⟩ | ⟨_, _, rfl⟩ | ⟨_, _, _, he⟩
    · exact hold he hp'
    · exact hp'
    · exact hold he (hword _ _ hp')

/-- Settles O56: beyond the first event of the schedule, no external action and no instruction touches the fields named. -/
theorem stepKeepsConfigAndFatal : Obligations.StepKeepsConfigAndFatal := by
  intro s t h
  have hf := (step_next h).1
  refine step_keeps_after_event
    (P := fun u => u.cfg = s.cfg ∧ s.fatal = false ∧ u.fatal = false ∧ u.fatalCause = s.fatalCause ∧ u.imem = s.imem ∧
      u.schedule = s.schedule.tail) ?cycle ?retire ?predict ?stall ?word ?bundle ?run h ?start
  case cycle => exact fun _ hp => hp
  case retire => exact fun _ hp => hp
  case predict => exact fun _ _ hp => hp
  case stall => exact fun _ _ hp => hp
  case word => exact fun _ _ hp => hp
  case bundle => exact fun _ _ _ _ _ hp => hp
  case run =>
    intro u d ds i t _ he hp
    obtain ⟨hcfg, _, _, hfatal, hcause, _, hsched, _⟩ := blockFrame _ _ _ he
    rw [hcfg, hfatal, hcause, exec_imem he, hsched]
    exact hp
  case start => exact ⟨rfl, hf, hf, rfl, rfl, rfl⟩

/-! ### Fetch -/

/-- A fetch is held while the stall is pending (R16). -/
theorem tryFetch_stalled {s : State} (hs : s.fetchStall = true) (item : Fetched) (src : OperandSource) :
    s.tryFetch item src = .next s := by
  rw [State.tryFetch, if_pos hs]

/-- A fetch at a word boundary takes place (R15). -/
theorem tryFetch_aligned {s : State} (hs : s.fetchStall = false) (ha : s.fetchPc.toNat % 4 = 0) (item : Fetched)
    (src : OperandSource) : s.tryFetch item src = .next (s.fetchItem item src) := by
  rw [State.tryFetch, if_neg (by simp [hs]), if_pos ((aligned4_iff _).mpr ha)]

/-- A fetch elsewhere is refused (R33). -/
theorem tryFetch_misaligned {s : State} (hs : s.fetchStall = false) (ha : s.fetchPc.toNat % 4 ≠ 0) (item : Fetched)
    (src : OperandSource) : s.tryFetch item src = .refused (.misalignedFetch s.fetchPc) := by
  rw [State.tryFetch, if_neg (by simp [hs]), if_neg (mt (aligned4_iff _).mp ha)]

/-- The address fetched after a word: the target of a steered JAL, or the prediction (R90, R126). -/
theorem nextFetchPc_word (s : State) (pc : Word) (w : BitVec 32) (src : OperandSource) :
    s.nextFetchPc pc (.word w) src =
      if s.cfg.jalSteering = true ∧ opcodeOf w = 0x6F#7 then pc + (immJOf w).signExtend 32 else s.predict pc := by
  cases hj : s.cfg.jalSteering with
  | false => simp [State.nextFetchPc, State.steerTarget, hj]
  | true => by_cases ho : opcodeOf w = 0x6F#7 <;> simp [State.nextFetchPc, State.steerTarget, hj, ho]

/-- A bundle that steering does not act on is followed by the prediction. -/
theorem nextFetchPc_bundle_unsteered {s : State} {w : BitVec 64}
    (h : ¬ (s.cfg.jalSteering = true ∧ (Bundle.unpack w).brOp = 1#4 ∧ (Bundle.unpack w).noClass = true)) (pc : Word)
    (src : OperandSource) : s.nextFetchPc pc (.bundle w) src = s.predict pc := by
  cases hj : s.cfg.jalSteering with
  | false => simp [State.nextFetchPc, State.steerTarget, hj]
  | true =>
    by_cases hb : (Bundle.unpack w).brOp = 1#4
    · have hw : bundleWellFormed (Bundle.unpack w) = false := by
        rw [bundleWellFormed_branch (by simp [hb])]
        simpa [hj, hb] using h
      simp [State.nextFetchPc, State.steerTarget, hj, hw]
    · simp [State.nextFetchPc, State.steerTarget, hj, hb]

/-- A steered JAL bundle is followed by its ALU result from the operand values as they stand, or where the ALU gives none by the
prediction (R92, R157). -/
theorem nextFetchPc_bundle_steered {s : State} {w : BitVec 64}
    (h : s.cfg.jalSteering = true ∧ (Bundle.unpack w).brOp = 1#4 ∧ (Bundle.unpack w).noClass = true) (pc : Word)
    (src : OperandSource) :
    s.nextFetchPc pc (.bundle w) src =
      match compute (Bundle.unpack w)
          { pc := pc, rs1Value := (s.sourceValues (Bundle.unpack w) src).1, rs2Value := (s.sourceValues (Bundle.unpack w) src).2,
            predNextPc := 0#32 } with
      | .ok target => target
      | .error _ => s.predict pc := by
  obtain ⟨hj, hb, hc⟩ := h
  have hw : bundleWellFormed (Bundle.unpack w) = true := by rw [bundleWellFormed_branch (by simp [hb]), hc]
  simp only [State.nextFetchPc, State.steerTarget, hj, hb, hw]
  cases compute (Bundle.unpack w) _ <;> rfl

/-- What a step that makes one fetch request does: nothing under a stall, one fetch at a word boundary, a refusal elsewhere. -/
theorem step_of_fetchRequest {s : State} {rest : List Event} {item : Fetched} {src : OperandSource} {n : Word}
    (h : step s = State.tryFetch item src { s with schedule := rest }) (hn : s.nextFetchPc s.fetchPc item src = n) :
    (s.fetchStall = true → step s = .next { s with schedule := rest }) ∧
      (s.fetchStall = false → s.fetchPc.toNat % 4 = 0 →
        step s = .next { s with
          schedule := rest
          inflight := s.inflight ++ [{ pc := s.fetchPc, item := item, source := src }]
          fetchPc := n }) ∧
      (s.fetchStall = false → s.fetchPc.toNat % 4 ≠ 0 → step s = .refused (.misalignedFetch s.fetchPc)) := by
  rw [h, ← hn]
  exact ⟨fun hst => tryFetch_stalled (s := { s with schedule := rest }) hst item src,
    fun hst ha => tryFetch_aligned (s := { s with schedule := rest }) hst ha item src,
    fun hst ha => tryFetch_misaligned (s := { s with schedule := rest }) hst ha item src⟩

/-- Settles O51: a fetch event is one fetch request, and `fetch_pc` becomes what steering or the predictor answers. -/
theorem fetchEvent : Obligations.FetchEvent := by
  intro s rest hf
  refine ⟨fun hs => step_of_fetchRequest (step_of_event hf hs) ?word,
    fun w src hs => step_of_fetchRequest (step_of_event hf hs) ?bundle⟩
  case word =>
    rw [nextFetchPc_word]
    exact if_congr (and_congr_right' (opcodeOf_iff _ (k := 0x6F) (by decide))) rfl rfl
  case bundle =>
    by_cases h : s.cfg.jalSteering = true ∧ (Bundle.unpack w).brOp = 1#4 ∧ (Bundle.unpack w).noClass = true
    · rw [nextFetchPc_bundle_steered h, if_pos h]
      cases src <;> rfl
    · rw [nextFetchPc_bundle_unsteered h, if_neg h]

/-- Settles O49: the step fetches the word at `fetch_pc`, which is then the oldest in flight, and executes it. -/
theorem stepRunsDecodedWord : Obligations.StepRunsDecodedWord := by
  intro s i hf hs hi hst ha hm hd
  have hfetch : runEvent .fetch s = .next (s.fetchItem (.word (s.instrWord s.fetchPc)) .regFile) := tryFetch_aligned hst ha _ _
  have hi' : (s.fetchItem (.word (s.instrWord s.fetchPc)) .regFile).inflight =
      [{ pc := s.fetchPc, item := .word (s.instrWord s.fetchPc), source := .regFile }] := by
    rw [State.fetchItem_inflight, hi, List.nil_append]
  have hm' : (s.fetchItem (.word (s.instrWord s.fetchPc)) .regFile).isModified s.fetchPc = false := hm
  rw [step_of_instruction hf hs]
  simp only [runInstruction, hi, hfetch]
  rw [runOldest_of_decoded hi' hm' hd, issue_dropOldest hi']
  simp [State.portsFor, State.nextFetched, hi]

/-! ### The stream of fetched words -/

/-- A word fetched last extends a chain that ends at its pc to one that ends at its successor. -/
theorem chained_append_word (n pc : Word) (w : BitVec 32) (src : OperandSource) (ds : List InFlight) :
    chained n (ds ++ [{ pc := pc, item := .word w, source := src }]) = (chained pc ds && wordSuccessor pc w == n) := by
  induction ds with
  | nil => simp [chained]
  | cons d ds ih =>
    cases ds with
    | nil => simp [chained]
    | cons e es => simp only [List.cons_append, chained] at ih ⊢; rw [ih]; simp only [Bool.and_assoc]

/-- A chain without its oldest word is a chain. -/
theorem chained_tail {n : Word} {ds : List InFlight} (h : chained n ds = true) : chained n ds.tail = true := by
  cases ds with
  | nil => rfl
  | cons d ds =>
    simp only [chained, Bool.and_eq_true] at h
    exact h.2

/-- The in-flight words are a chain, under the fallthrough predictor and JAL steering: `State.fetchChain` with the configuration it is
kept under. -/
def State.fallthroughStream (s : State) : Prop :=
  s.cfg.predictor = .fallthrough ∧ s.cfg.jalSteering = true ∧ s.fetchChain = true

/-- Under the fallthrough predictor and JAL steering, fetch goes on at the successor of the word fetched (R90, R132). -/
theorem nextFetchPc_wordSuccessor {s : State} (hp : s.cfg.predictor = .fallthrough) (hj : s.cfg.jalSteering = true) (pc : Word)
    (w : BitVec 32) (src : OperandSource) : s.nextFetchPc pc (.word w) src = wordSuccessor pc w := by
  simp [nextFetchPc_word, hj, State.predict, hp, wordSuccessor, sext21]

/-- A word fetched joins the chain at its end (R15). -/
theorem fetchItem_fallthroughStream {s : State} (w : BitVec 32) (src : OperandSource) (h : s.fallthroughStream) :
    (s.fetchItem (.word w) src).fallthroughStream := by
  obtain ⟨hp, hj, hc⟩ := h
  refine ⟨hp, hj, ?_⟩
  rw [State.fetchChain] at hc ⊢
  rw [State.fetchItem_fetchPc, State.fetchItem_inflight, chained_append_word, hc, nextFetchPc_wordSuccessor hp hj,
    beq_self_eq_true, Bool.and_true]

/-- An execution takes the oldest word from the chain, or all of them. -/
theorem exec_fallthroughStream {i : Instr} {d : InFlight} {s t : State} (he : exec i (s.dropOldest.issue d) = .next t)
    (h : s.fallthroughStream) : t.fallthroughStream := by
  obtain ⟨hp, hj, hc⟩ := h
  obtain ⟨hcfg, _⟩ := blockFrame _ _ _ he
  refine ⟨hcfg ▸ hp, hcfg ▸ hj, ?_⟩
  rcases exec_stream he with ⟨hpc, hi⟩ | hi
  · rw [State.fetchChain, hpc, hi]
    exact chained_tail hc
  · rw [State.fetchChain, hi]
    rfl

/-- Settles O58: with no bundle delivered, a step extends the chain by one word at its end, takes its oldest word, flushes it, or
leaves it. -/
theorem fetchChainIsKept : Obligations.FetchChainIsKept := by
  intro s t hp hj hc hn h
  have hstream : t.fallthroughStream := by
    refine step_keeps_after_event (P := State.fallthroughStream) ?cycle ?retire ?predict ?stall ?word ?bundle ?run h ?start
    case cycle => exact fun _ hp => hp
    case retire => exact fun _ hp => hp
    case predict => exact fun _ _ hp => hp
    case stall => exact fun _ _ hp => hp
    case word => exact fun _ w hp => fetchItem_fallthroughStream w _ hp
    case bundle =>
      intro u w src rest hs
      simp [noBundleFetch, hs] at hn
    case run => exact fun _ _ _ _ _ _ he hp => exec_fallthroughStream he hp
    case start => exact ⟨hp, hj, hc⟩
  obtain ⟨_, _, hchain⟩ := hstream
  obtain ⟨_, _, _, _, _, hsched⟩ := stepKeepsConfigAndFatal s t h
  refine ⟨hchain, ?_⟩
  rw [hsched]
  exact List.all_eq_true.mpr fun e he => List.all_eq_true.mp hn e (List.mem_of_mem_tail he)

end Sys2Proof.Machine
end

section
/-! SUPPORT. The statements about memory settled: the bytes a write sets, reads by every width, what an instruction does to memory
and to the marks of R160, and the RV32 immediate operations with the word load and store. -/

namespace Sys2Proof.Machine

/-! ### The bytes of a write (R30) -/

/-- A store puts byte `k` of its value at offset `k` of its access. -/
theorem readByte_memWrite_inside (m : Memory) (a v : Word) {w : Width} {k : Nat} (hk : k < w.bytes) :
    readByte (memWrite m a w v) (a + BitVec.ofNat 32 k) = v.extractLsb' (8 * k) 8 := by
  cases w <;> simp only [Width.bytes] at hk
  case byte => interval_cases k; simp [readByte_memWrite_byte]
  case half => interval_cases k <;> simp [readByte_memWrite_half]
  case word => interval_cases k <;> simp [readByte_memWrite_word]

/-- An address that is at no offset of an access lies outside it. -/
theorem inAccess_false_of_ne {a x : Word} {w : Width} (h : ∀ k, k < w.bytes → x ≠ a + BitVec.ofNat 32 k) :
    inAccess a w x = false := by
  rw [← Bool.not_eq_true, inAccess_iff]
  rintro ⟨k, hk, hx⟩
  exact h k hk hx

/-- Settles O23: each offset of the access holds its byte of the value, and any other address lies outside the access. -/
theorem memWriteBytes : Obligations.MemWriteBytes := by
  intro m a w v
  exact ⟨fun _ hk => readByte_memWrite_inside m a v hk, fun x hx => readByte_memWrite_outside m a x v w (inAccess_false_of_ne hx)⟩

/-! ### Reads by every width (R29, R31, R32) -/

/-- Byte `k` of a read: the memory's byte at offset `k` below the width, the zero fill above it. -/
def readLane (m : Memory) (a : Word) (w : Width) (k : Nat) : Byte :=
  if k < w.bytes then readByte m (a + BitVec.ofNat 32 k) else 0#8

/-- A zero-filled byte is four bytes put together. -/
theorem setWidth_byte (b : Byte) : b.setWidth 32 = 0#8 ++ 0#8 ++ 0#8 ++ b := by
  apply BitVec.eq_of_toNat_eq
  have hb := b.isLt
  simp only [BitVec.toNat_append, BitVec.toNat_setWidth, BitVec.toNat_ofNat, Nat.zero_mod, Nat.zero_shiftLeft, Nat.zero_or]
  omega

/-- A zero-filled halfword is four bytes put together. -/
theorem setWidth_half (b1 b0 : Byte) : (b1 ++ b0).setWidth 32 = 0#8 ++ 0#8 ++ b1 ++ b0 := by
  apply BitVec.eq_of_toNat_eq
  have hb := (b1 ++ b0).isLt
  simp only [BitVec.toNat_append, BitVec.toNat_setWidth, BitVec.toNat_ofNat, Nat.zero_mod, Nat.zero_shiftLeft, Nat.zero_or] at hb ⊢
  omega

/-- A read is its four bytes put together, the one at the lowest address last. -/
theorem memRead_eq_lanes (m : Memory) (a : Word) (w : Width) :
    memRead m a w = readLane m a w 3 ++ readLane m a w 2 ++ readLane m a w 1 ++ readLane m a w 0 := by
  cases w
  case byte => simp [memRead_byte, readLane, Width.bytes, setWidth_byte]
  case half => simp [memRead_half, readLane, Width.bytes, setWidth_half]
  case word => simp [memRead_word, readLane, Width.bytes]

/-- Byte `k` of a read, taken out of it. -/
theorem extract_memRead (m : Memory) (a : Word) (w : Width) {k : Nat} (hk : k < 4) :
    (memRead m a w).extractLsb' (8 * k) 8 = readLane m a w k := by
  obtain ⟨h0, h1, h2, h3, _, _⟩ := extract_append (readLane m a w 3) (readLane m a w 2) (readLane m a w 1) (readLane m a w 0)
  rw [memRead_eq_lanes]
  interval_cases k
  · exact h0
  · exact h1
  · exact h2
  · exact h3

/-- The halfword at `a` is the low half of the word there. -/
theorem memRead_half_low (m : Memory) (a : Word) :
    memRead m a .half = ((memRead m a .word).extractLsb' 0 16).setWidth 32 := by
  obtain ⟨_, _, _, _, hlow, _⟩ :=
    extract_append (readByte m (a + 3#32)) (readByte m (a + 2#32)) (readByte m (a + 1#32)) (readByte m a)
  rw [memRead_word, hlow, memRead_half]

/-- The halfword at `a + 2` is the high half of the word at `a`. -/
theorem memRead_half_high (m : Memory) (a : Word) :
    memRead m (a + 2#32) .half = ((memRead m a .word).extractLsb' 16 16).setWidth 32 := by
  obtain ⟨_, _, _, _, _, hhigh⟩ :=
    extract_append (readByte m (a + 3#32)) (readByte m (a + 2#32)) (readByte m (a + 1#32)) (readByte m a)
  have ha : a + 2#32 + 1#32 = a + 3#32 := by simp [BitVec.add_assoc]
  rw [memRead_word, hhigh, memRead_half, ha]

/-- A word just written reads back whole, at any alignment. -/
theorem memRead_memWrite_word (m : Memory) (a v : Word) : memRead (memWrite m a .word v) a .word = v := by
  have hlane : ∀ k, k < 4 → readLane (memWrite m a .word v) a .word k = v.extractLsb' (8 * k) 8 := fun k hk =>
    (if_pos hk).trans (readByte_memWrite_inside m a v (w := .word) hk)
  rw [memRead_eq_lanes, hlane 3 (by decide), hlane 2 (by decide), hlane 1 (by decide), hlane 0 (by decide)]
  exact append_extract v

/-- Settles O24: a read is its four lanes put together, whatever the width. -/
theorem memReadMixedWidths : Obligations.MemReadMixedWidths := by
  intro m a v
  exact ⟨fun w _ hk => extract_memRead m a w hk, memRead_half_low m a, memRead_half_high m a, memRead_memWrite_word m a v⟩

/-! ### What an instruction does to memory and to the marks -/

/-- What an instruction does to memory, the console and the marks of R160: nothing where it has no store target, else one store
there; and a redirect then forgets every mark. -/
theorem exec_storeEffect {i : Instr} {s t : State} (h : exec i s = .next t) :
    ∃ u : State, (storeTargetOf i s = none ∧ u = s ∨ ∃ a w v, storeTargetOf i s = some (a, w) ∧ u = s.storeTo a w v) ∧
      t.mem = u.mem ∧ t.console = u.console ∧ t.modified = if t.out.redirect then [] else u.modified := by
  obtain ⟨v1, v2, v, _, hc⟩ := exec_cases h
  rcases hc with ⟨_, hst, wb, rfl⟩ | ⟨_, w, hst, rfl⟩ | ⟨_, hst, _, tk, _, rfl⟩
  · exact ⟨s, .inl ⟨hst, rfl⟩, rfl, rfl, afterNone_modified ..⟩
  · exact ⟨s.storeTo v w v2, .inr ⟨v, w, v2, hst, rfl⟩, rfl, rfl, afterNone_modified ..⟩
  · exact ⟨s, .inl ⟨hst, rfl⟩, rfl, rfl, afterBranch_modified ..⟩

/-- A store, to the console or to memory, leaves every byte outside its access as it reads. -/
theorem readByte_storeTo_outside (s : State) {a x : Word} {w : Width} (v : Word) (h : inAccess a w x = false) :
    readByte (s.storeTo a w v).mem x = readByte s.mem x := by
  rw [State.storeTo_mem]
  split
  · rfl
  · exact readByte_memWrite_outside s.mem a x v w h

/-- Settles O26: an instruction leaves memory as it is, or as the one store at its store target leaves it. -/
theorem memoryFrame : Obligations.MemoryFrame := by
  intro i s t h
  obtain ⟨u, hu, hmem, hcon, _⟩ := exec_storeEffect h
  refine ⟨exec_imem h, fun hnone => ?nothing, fun a w hsome x hx => ?outside⟩ <;> rw [hmem]
  case nothing =>
    rcases hu with ⟨_, rfl⟩ | ⟨_, _, _, hst, _⟩
    · exact ⟨fun _ => rfl, hcon⟩
    · rw [hnone] at hst; cases hst
  case outside =>
    rcases hu with ⟨hst, _⟩ | ⟨_, _, v, hst, rfl⟩
    · rw [hsome] at hst; cases hst
    · rw [hsome] at hst
      cases hst
      exact readByte_storeTo_outside s v hx

/-! ### The marks of R160 -/

/-- The oldest instruction in flight is refused where one of its bytes is marked. -/
theorem runOldest_of_modified {s : State} {d : InFlight} {ds : List InFlight} (hi : s.inflight = d :: ds)
    (hm : s.isModified d.pc = true) : runOldest s = .refused (.modifiedInstruction d.pc) := by
  have hm' : s.dropOldest.isModified d.pc = true := (isModified_congr (s := s) rfl d.pc).trans hm
  simp only [runOldest, hi, runEntry, hm', if_true]

/-- With nothing in flight or scheduled, a step fetches the word at `fetch_pc` and runs it. -/
theorem step_runs_fetched {s : State} (hf : s.fatal = false) (hs : s.schedule = []) (hi : s.inflight = [])
    (hst : s.fetchStall = false) (ha : s.fetchPc.toNat % 4 = 0) :
    step s = runOldest (s.fetchItem (.word (s.instrWord s.fetchPc)) .regFile) := by
  have hfetch : runEvent .fetch s = .next (s.fetchItem (.word (s.instrWord s.fetchPc)) .regFile) := tryFetch_aligned hst ha _ _
  rw [step_of_instruction hf hs]
  simp only [runInstruction, hi, hfetch]

/-- A store keeps every mark. -/
theorem storeTo_keeps_mark (s : State) (a : Word) (w : Width) (v : Word) {k : Nat} (h : Sparse.get false k s.modified = true) :
    Sparse.get false k (s.storeTo a w v).modified = true := by
  rw [State.storeTo_modified]
  split
  · exact h
  · exact markModified_keeps a _ h

/-- A store outside the console range marks every byte it writes, where instructions are fetched from data memory. -/
theorem storeTo_marks {s : State} {a x : Word} {w : Width} (v : Word) (hu : s.cfg.instrSpace = .unified)
    (hc : Config.inConsole s.cfg a = false) (hx : inAccess a w x = true) :
    Sparse.get false x.toNat (s.storeTo a w v).modified = true := by
  rw [State.storeTo_modified, hc, hu, if_neg (by decide)]
  exact markModified_marks a x v w hx

/-- Settles O52: a marked byte makes the execution a refusal, and only a flush takes a mark away. -/
theorem modifiedInstructionIsRefused : Obligations.ModifiedInstructionIsRefused := by
  intro s hf
  refine ⟨fun d ds rest k hs hi hk hm => ?oldest, fun k hs hi hst ha hk hm => ?fetched, fun i t x h hr => ?marks⟩
  case oldest =>
    have hmod : s.isModified d.pc = true := isModified_of_byte hk hm
    obtain ⟨rest', hs'⟩ : ∃ rest', s.schedule = .execute :: rest' ∨ s.schedule = [] ∧ rest' = [] :=
      hs.elim (fun hs => ⟨rest, .inl hs⟩) (fun hs => ⟨[], .inr ⟨hs, rfl⟩⟩)
    rw [step_runs_oldest hf hs' hi]
    exact runOldest_of_modified (s := { s with schedule := rest' }) hi hmod
  case fetched =>
    have hmod : s.isModified s.fetchPc = true := isModified_of_byte hk hm
    rw [step_runs_fetched hf hs hi hst ha]
    exact runOldest_of_modified (d := { pc := s.fetchPc, item := _, source := .regFile }) (ds := [])
      (by rw [State.fetchItem_inflight, hi, List.nil_append]) hmod
  case marks =>
    obtain ⟨u, hu, _, _, hmod⟩ := exec_storeEffect h
    rw [hmod, hr, if_neg Bool.false_ne_true]
    rcases hu with ⟨hnone, rfl⟩ | ⟨a, w, v, hst, rfl⟩
    · refine ⟨id, fun a w hsome => ?_⟩
      rw [hnone] at hsome; cases hsome
    · refine ⟨storeTo_keeps_mark s a w v, fun a' w' hsome hspace hc hx => ?_⟩
      rw [hst] at hsome
      cases hsome
      exact storeTo_marks v hspace hc hx

/-! ### The RV32 immediate operations (R57) -/

/-- An RV32 row whose bundle has no class flag and no branch writes its ALU result back at `rd`. -/
theorem executeWord_none {b : Bundle} {s : State} {v : Word} (hf : s.fatal = false) (hc : b.noClass = true) (hb : b.brOp = 0#4)
    (hv : compute b (s.withOperands (s.readReg b.rs1) (s.readReg b.rs2)).ports = .ok v) :
    executeWord b s = .next ((s.withOperands (s.readReg b.rs1) (s.readReg b.rs2)).afterNone b.rd v v) :=
  execute_none (s := s.withOperands (s.readReg b.rs1) (s.readReg b.rs2)) hf hc hb hv

/-- The bundle of a row of R57 with one source register and an immediate: the ALU selector, the two registers, and `op2_imm` with the
immediate. -/
def immBundle (op : BitVec 4) (rd rs1 : RegIdx) (imm : Word) : Bundle :=
  { emptyBundle with aluOp := op, op2Imm := true, rd := rd, rs1 := rs1, imm := imm }

/-- A row with such a bundle delivers the selected operation on `x[rs1]` and the immediate at `rd`. -/
theorem executeWord_imm {s : State} (hf : s.fatal = false) {op : BitVec 4} {rd rs1 : RegIdx} {imm v : Word}
    (hv : aluOf op (s.readReg rs1) imm = .ok v) :
    executeWord (immBundle op rd rs1 imm) s = .next ((s.withOperands (s.readReg rs1) 0#32).afterNone rd v v) := by
  rw [executeWord_none (b := immBundle op rd rs1 imm) hf rfl rfl hv, immBundle, emptyBundle, readReg_zero]

/-- Settles O44: each row is the transaction of a bundle without class or branch, whose ALU result is the value stated. -/
theorem rv32ImmediateOps : Obligations.Rv32ImmediateOps := by
  intro rd rs1 imm sh up fm pred succ s hf
  refine ⟨?addi, ?slti, ?sltiu, ?xori, ?ori, ?andi, ?slli, ?srli, ?srai, ?lui, ?auipc, ?fence⟩
  case addi => exact executeWord_imm hf rfl
  case slti => exact executeWord_imm hf (congrArg Except.ok (boolWord_ltSigned ..))
  case sltiu => exact executeWord_imm hf (congrArg Except.ok (boolWord_ltUnsigned ..))
  case xori => exact executeWord_imm hf rfl
  case ori => exact executeWord_imm hf rfl
  case andi => exact executeWord_imm hf rfl
  case slli => exact executeWord_imm hf (congrArg (fun n => Except.ok (s.readReg rs1 <<< n)) (shamtOf_shift sh))
  case srli => exact executeWord_imm hf (congrArg (fun n => Except.ok (s.readReg rs1 >>> n)) (shamtOf_shift sh))
  case srai => exact executeWord_imm hf (congrArg (fun n => Except.ok ((s.readReg rs1).sshiftRight n)) (shamtOf_srai sh))
  case lui =>
    have hv : aluOf 1#4 (s.readReg 0#5) (immU up) = .ok (up ++ 0#12) := by
      rw [readReg_zero, immU_eq]
      exact congrArg Except.ok (BitVec.zero_add _)
    have h := executeWord_imm (rd := rd) hf hv
    rwa [readReg_zero] at h
  case auipc =>
    have h := executeWord_none (s := s) (v := s.ports.pc + (up ++ 0#12))
      (b := { emptyBundle with aluOp := 1#4, op1Pc := true, op2Imm := true, rd := rd, imm := immU up }) hf rfl rfl
      (congrArg (fun y => Except.ok (s.ports.pc + y)) (immU_eq up))
    simp only [emptyBundle, readReg_zero] at h
    exact h
  case fence =>
    have h := executeWord_none (s := s) (v := 0#32) (b := { emptyBundle with rs1 := rs1 }) hf rfl rfl rfl
    simp only [emptyBundle, readReg_zero] at h
    exact h

/-! ### A word load after a word store (R36, R39) -/

/-- SW stores `x[rs2]` at `x[rs1]` plus the immediate (R112). -/
theorem exec_sw {s : State} (hf : s.fatal = false) (rs1 rs2 : RegIdx) (imm : BitVec 12) :
    exec (.sw rs1 rs2 imm) s = .next (((s.withOperands (s.readReg rs1) (s.readReg rs2)).storeTo
      (s.readReg rs1 + imm.signExtend 32) .word (s.readReg rs2)).afterNone 0#5
      (s.readReg rs1 + imm.signExtend 32) (s.readReg rs1 + imm.signExtend 32)) :=
  execute_store (s := s.withOperands (s.readReg rs1) (s.readReg rs2)) hf ⟨rfl, rfl, rfl, rfl⟩ rfl rfl

/-- LW delivers the word at `x[rs1]` plus the immediate (R106). -/
theorem exec_lw {s : State} (hf : s.fatal = false) (rd rs1 : RegIdx) (imm : BitVec 12) :
    exec (.lw rd rs1 imm) s = .next ((s.withOperands (s.readReg rs1) 0#32).afterNone rd
      (s.readReg rs1 + imm.signExtend 32) (memRead s.mem (s.readReg rs1 + imm.signExtend 32) .word)) := by
  rw [← readReg_zero s]
  exact execute_load (s := s.withOperands (s.readReg rs1) (s.readReg 0#5)) hf ⟨rfl, rfl, rfl, rfl⟩ rfl rfl

/-- Memory after SW: one word written, or the memory as it was where the store went to the console (R114). -/
theorem sw_mem {rs1 rs2 : RegIdx} {imm : BitVec 12} {s t : State} (h : exec (.sw rs1 rs2 imm) s = .next t) :
    t.mem = if Config.inConsole s.cfg (s.readReg rs1 + imm.signExtend 32) then s.mem
      else memWrite s.mem (s.readReg rs1 + imm.signExtend 32) .word (s.readReg rs2) := by
  obtain ⟨_, _, _, hf, _⟩ := exec_cases h
  rw [exec_sw hf] at h
  cases h
  rfl

/-- The destination of LW, unless it is x0, holds the word at its address (R106). -/
theorem lw_readReg {rd rs1 : RegIdx} {imm : BitVec 12} {s t : State} (h : exec (.lw rd rs1 imm) s = .next t) (hrd : rd ≠ 0#5) :
    t.readReg rd = memRead s.mem (s.readReg rs1 + imm.signExtend 32) .word := by
  obtain ⟨_, _, _, hf, _⟩ := exec_cases h
  rw [exec_lw hf] at h
  cases h
  rw [readReg_of_regsWith (s := s.withOperands (s.readReg rs1) 0#32) rfl, if_pos ⟨rfl, hrd⟩]

/-- Settles O25: the load reads the memory the store left, which gives the stored word back unless it went to the console. -/
theorem loadSeesLastStore : Obligations.LoadSeesLastStore := by
  intro rs1 rs2 rd rs3 imm imm' s t u hsw hlw a ha hrd
  have hmem : t.mem = if Config.inConsole s.cfg a then s.mem else memWrite s.mem a .word (s.readReg rs2) := sw_mem hsw
  rw [lw_readReg hlw hrd, ha, hmem]
  split
  · rfl
  · exact memRead_memWrite_word s.mem a (s.readReg rs2)

end Sys2Proof.Machine
end

section
/-! SUPPORT. The encoding of bundles settled: the canonical row of a bundle and the bundle of a row are each other's inverse
(R46 to R53, log 6), and a bundle executes the same under each row that it matches. -/

namespace Sys2Proof

/-! ### The rows by the fields they fix -/

theorem isAluRow_iff {k : BitVec 4} {b : Bundle} :
    b.isAluRow k = true ↔ b.aluOp = k ∧ b.brOp = 0#4 ∧ b.noClass = true := by
  simp [Bundle.isAluRow, and_assoc]

theorem isBrRow_iff {k : BitVec 4} {b : Bundle} :
    b.isBrRow k = true ↔ b.brOp = k ∧ b.noClass = true ∧ b.aluOp ≠ 15#4 := by
  simp [Bundle.isBrRow, Bundle.aluLegal, and_assoc]

theorem isLoadRow_iff {f : BitVec 3} {b : Bundle} : b.isLoadRow f = true ↔
    b.func3 = f ∧ b.brOp = 0#4 ∧ b.isLoad = true ∧ b.isStore = false ∧ b.isCsr = false ∧ b.aluOp ≠ 15#4 := by
  simp [Bundle.isLoadRow, Bundle.aluLegal, and_assoc]

theorem isStoreRow_iff {f : BitVec 2} {b : Bundle} : b.isStoreRow f = true ↔
    b.func3.extractLsb' 0 2 = f ∧ b.brOp = 0#4 ∧ b.isLoad = false ∧ b.isStore = true ∧ b.isCsr = false ∧ b.aluOp ≠ 15#4 := by
  simp [Bundle.isStoreRow, Bundle.aluLegal, and_assoc]

theorem isCsrRow_iff {b : Bundle} : b.isCsrRow = true ↔
    b.brOp = 0#4 ∧ b.isLoad = false ∧ b.isStore = false ∧ b.isCsr = true ∧ b.aluOp ≠ 15#4 := by
  simp [Bundle.isCsrRow, Bundle.aluLegal, and_assoc]

/-! ### A row fixes nothing new in a bundle it names -/

theorem asAlu_eq_self {k : BitVec 4} {b : Bundle} (h : b.aluOp = k) : b.asAlu k = b := by
  rw [← h]; rfl

theorem asBr_eq_self {k : BitVec 4} {b : Bundle} (h : b.brOp = k) : b.asBr k = b := by
  rw [← h]; rfl

theorem asLoad_eq_self {f : BitVec 3} {b : Bundle} (h : b.isLoadRow f = true) : b.asLoad f = b := by
  obtain ⟨hf, hbr, hl, hs, hc, _⟩ := isLoadRow_iff.mp h
  cases b; simp_all [Bundle.asLoad]

/-- `func3[1:0]` put back beside the ignored `func3[2]` (R113). -/
theorem func3_join (f : BitVec 3) : (f &&& 4#3) ||| (f.extractLsb' 0 2).setWidth 3 = f := by
  revert f; decide

theorem asStore_eq_self {f : BitVec 2} {b : Bundle} (h : b.isStoreRow f = true) : b.asStore f = b := by
  obtain ⟨hf, hbr, hl, hs, hc, _⟩ := isStoreRow_iff.mp h
  subst hf
  cases b; simp_all [Bundle.asStore, func3_join]

theorem asCsr_eq_self {b : Bundle} (h : b.isCsrRow = true) : b.asCsr = b := by
  obtain ⟨hbr, hl, hs, hc, _⟩ := isCsrRow_iff.mp h
  cases b; simp_all [Bundle.asCsr]

theorem asPass_eq_self {b : Bundle} (h : b.noClass = true) : b.asPass = b := by
  obtain ⟨hl, hs, hc⟩ := (Machine.noClass_iff b).mp h
  cases b; simp_all [Bundle.asPass]

/-! ### Which part of `Bundle.classify` names a bundle -/

/-- The conditions of R52 on the fields. -/
theorem classesLegal_iff {b : Bundle} : b.classesLegal = true ↔
    b.noClass = true ∨ b.brOp = 0#4 ∧ (b.isLoad = true ∧ b.isStore = false ∧ b.isCsr = false ∨
      b.isLoad = false ∧ b.isStore = true ∧ b.isCsr = false ∨ b.isLoad = false ∧ b.isStore = false ∧ b.isCsr = true) := by
  cases hl : b.isLoad <;> cases hs : b.isStore <;> cases hc : b.isCsr <;> simp [Bundle.classesLegal, Bundle.noClass, hl, hs, hc]

theorem classify_reserved {b : Bundle} (hc : b.classesLegal = true) (ha : b.aluOp = 15#4) : b.classify = .aluReserved15 b := by
  rcases classesLegal_iff.mp hc with hn | ⟨hbr, h | h | h⟩
  · obtain ⟨hl, hs, hc⟩ := (Machine.noClass_iff b).mp hn
    simp [Bundle.classify, hl, hs, hc, ha]
  all_goals
    obtain ⟨hl, hs, hc⟩ := h
    simp [Bundle.classify, hl, hs, hc, ha, hbr]

theorem classify_noClass {b : Bundle} (hn : b.noClass = true) (ha : b.aluOp ≠ 15#4) :
    b.classify = if b.brOp = 0#4 then b.classifyAlu else b.classifyBr := by
  obtain ⟨hl, hs, hc⟩ := (Machine.noClass_iff b).mp hn
  simp [Bundle.classify, hl, hs, hc, ha]

theorem classify_load {f : BitVec 3} {b : Bundle} (h : b.isLoadRow f = true) : b.classify = b.classifyLoad := by
  obtain ⟨_, hbr, hl, hs, hc, ha⟩ := isLoadRow_iff.mp h
  simp [Bundle.classify, hl, hs, hc, ha, hbr]

theorem classify_store {f : BitVec 2} {b : Bundle} (h : b.isStoreRow f = true) : b.classify = b.classifyStore := by
  obtain ⟨_, hbr, hl, hs, hc, ha⟩ := isStoreRow_iff.mp h
  simp [Bundle.classify, hl, hs, hc, ha, hbr]

theorem classify_csr {b : Bundle} (h : b.isCsrRow = true) : b.classify = .csrAccess b := by
  obtain ⟨hbr, hl, hs, hc, ha⟩ := isCsrRow_iff.mp h
  simp [Bundle.classify, hl, hs, hc, ha, hbr]

/-! ### From a row to its bundle and back -/

/-- The decoder reads a packed bundle as the bundle's canonical row. -/
@[simp] theorem decode_bundle_pack (b : Bundle) : decode (.bundle b.pack) = .ok b.classify := by
  rw [decode, Bundle.unpack_pack]

theorem decode_aluRow {mk : Bundle → Instr} {k : BitVec 4} {b : Bundle} (h : b.isAluRow k = true) (hk : k ≠ 15#4)
    (hmk : ∀ c : Bundle, (c.asAlu k).classifyAlu = mk (c.asAlu k)) : decode (.bundle (b.asAlu k).pack) = .ok (mk b) := by
  obtain ⟨hop, hbr, hn⟩ := isAluRow_iff.mp h
  have hb := asAlu_eq_self hop
  rw [hb, decode_bundle_pack, classify_noClass hn (hop ▸ hk), if_pos hbr, ← hb, hmk]

theorem decode_brRow {mk : Bundle → Instr} {k : BitVec 4} {b : Bundle} (h : b.isBrRow k = true) (hk : k ≠ 0#4)
    (hmk : ∀ c : Bundle, (c.asBr k).classifyBr = mk (c.asBr k)) : decode (.bundle (b.asBr k).pack) = .ok (mk b) := by
  obtain ⟨hop, hn, ha⟩ := isBrRow_iff.mp h
  have hb := asBr_eq_self hop
  rw [hb, decode_bundle_pack, classify_noClass hn ha, if_neg (hop ▸ hk), ← hb, hmk]

theorem decode_loadRow {mk : Bundle → Instr} {f : BitVec 3} {b : Bundle} (h : b.isLoadRow f = true)
    (hmk : ∀ c : Bundle, (c.asLoad f).classifyLoad = mk (c.asLoad f)) : decode (.bundle (b.asLoad f).pack) = .ok (mk b) := by
  have hb := asLoad_eq_self h
  rw [hb, decode_bundle_pack, classify_load h, ← hb, hmk]

theorem decode_storeRow {mk : Bundle → Instr} {f : BitVec 2} {b : Bundle} (h : b.isStoreRow f = true)
    (hmk : ∀ c : Bundle, c.func3.extractLsb' 0 2 = f → c.classifyStore = mk c) : decode (.bundle (b.asStore f).pack) = .ok (mk b) := by
  rw [asStore_eq_self h, decode_bundle_pack, classify_store h, hmk b (isStoreRow_iff.mp h).1]

/-- The three rows of a bundle with no class flag and both selectors NONE, by the ignored `func3` (log 6). -/
theorem classify_none {b : Bundle} (h : b.isAluRow 0#4 = true) :
    b.classify = if b.func3 = 0#3 then .aluNone b else if b.func3 = 1#3 then .brNone b else .pass b := by
  obtain ⟨hop, hbr, hn⟩ := isAluRow_iff.mp h
  rw [classify_noClass hn (by simp [hop]), if_pos hbr, Bundle.classifyAlu, hop]
  simp

theorem wf_aluNone {b : Bundle} : (Instr.aluNone b).wf = true ↔ b.isAluRow 0#4 = true ∧ b.func3 = 0#3 := by
  simp [Instr.wf]

theorem wf_brNone {b : Bundle} : (Instr.brNone b).wf = true ↔ b.isAluRow 0#4 = true ∧ b.func3 = 1#3 := by
  simp [Instr.wf]

theorem wf_pass {b : Bundle} : (Instr.pass b).wf = true ↔ b.isAluRow 0#4 = true ∧ b.func3 ≠ 0#3 ∧ b.func3 ≠ 1#3 := by
  simp [Instr.wf, and_assoc]

theorem wf_aluReserved15 {b : Bundle} : (Instr.aluReserved15 b).wf = true ↔ b.aluOp = 15#4 ∧ b.classesLegal = true := by
  simp [Instr.wf]

/-- Decoding inverts encoding on the rows that carry a bundle. -/
theorem decode_encode_bundle {i : Instr} (hi : i.wf = true) {w : BitVec 64} (he : i.encode = .bundle w) :
    decode i.encode = .ok i := by
  cases i with
  | aluNone b =>
    obtain ⟨h, hf⟩ := wf_aluNone.mp hi
    rw [Instr.encode, asAlu_eq_self (isAluRow_iff.mp h).1, decode_bundle_pack, classify_none h, if_pos hf]
  | brNone b =>
    obtain ⟨h, hf⟩ := wf_brNone.mp hi
    rw [Instr.encode, asBr_eq_self (isAluRow_iff.mp h).2.1, decode_bundle_pack, classify_none h, hf]; rfl
  | pass b =>
    obtain ⟨h, hf0, hf1⟩ := wf_pass.mp hi
    rw [Instr.encode, asPass_eq_self (isAluRow_iff.mp h).2.2, decode_bundle_pack, classify_none h, if_neg hf0, if_neg hf1]
  | aluAdd b | aluSub b | aluAnd b | aluOr b | aluXor b | aluSll b | aluSrl b | aluSra b | aluLti b | aluLtu b | aluMul b
  | aluMulh b | aluMulhsu b | aluMulhu b => exact decode_aluRow hi (by decide) fun _ => rfl
  | aluReserved15 b =>
    obtain ⟨hop, hc⟩ := wf_aluReserved15.mp hi
    rw [Instr.encode, asAlu_eq_self hop, decode_bundle_pack, classify_reserved hc hop]
  | brJal b | brJalr b | brBeq b | brBne b | brBlt b | brBge b | brBltu b | brBgeu b | brReserved9 b | brReserved10 b
  | brReserved11 b | brReserved12 b | brReserved13 b | brReserved14 b | brReserved15 b =>
    exact decode_brRow hi (by decide) fun _ => rfl
  | memLb b | memLh b | memLw b | memLoadReserved3 b | memLbu b | memLhu b | memLoadF36 b | memLoadReserved7 b =>
    exact decode_loadRow hi fun _ => rfl
  | memSb b | memSh b | memSw b | memStoreReserved3 b =>
    exact decode_storeRow hi fun c hc => by rw [Bundle.classifyStore, hc]; rfl
  | csrAccess b => rw [Instr.encode, asCsr_eq_self hi, decode_bundle_pack, classify_csr hi]
  | illegalLoadStore b | illegalLoadCsr b | illegalStoreCsr b | illegalLoadBranch b | illegalStoreBranch b | illegalCsrBranch b =>
    rw [Instr.encode, decode_bundle_pack]
    simp_all [Instr.wf, Bundle.classify]
  | _ => cases he

/-! ### From a bundle to its canonical row and back -/

/-- The row is well-formed and is the row of the bundle `b`. -/
def Instr.names (i : Instr) (b : Bundle) : Prop := i.wf = true ∧ i.encode = .bundle b.pack

/-- A row whose fixed fields are `b`'s own encodes as `b`. -/
theorem names_of_eq {i : Instr} {b c : Bundle} (hi : i.wf = true) (he : i.encode = .bundle c.pack) (hc : c = b) : i.names b :=
  ⟨hi, hc ▸ he⟩

theorem classifyAlu_names {b : Bundle} (hbr : b.brOp = 0#4) (hn : b.noClass = true) (ha : b.aluOp ≠ 15#4) :
    b.classifyAlu.names b := by
  obtain ⟨n, hop⟩ : ∃ n, b.aluOp.toNat = n := ⟨_, rfl⟩
  have hk : b.aluOp = BitVec.ofNat 4 n := by rw [← hop, BitVec.ofNat_toNat, BitVec.setWidth_eq]
  have hlt : n < 15 := by
    have : b.aluOp.toNat ≠ 15 := fun e => ha (BitVec.eq_of_toNat_eq e)
    omega
  have hrow : b.isAluRow (BitVec.ofNat 4 n) = true := isAluRow_iff.mpr ⟨hk, hbr, hn⟩
  rw [Bundle.classifyAlu, hop]
  interval_cases n
  · simp only [beq_iff_eq]
    split
    next hf => exact names_of_eq (wf_aluNone.mpr ⟨hrow, hf⟩) rfl (asAlu_eq_self hk)
    next hf0 =>
      split
      next hf => exact names_of_eq (wf_brNone.mpr ⟨hrow, hf⟩) rfl (asBr_eq_self hbr)
      next hf1 => exact names_of_eq (wf_pass.mpr ⟨hrow, hf0, hf1⟩) rfl (asPass_eq_self hn)
  all_goals exact names_of_eq hrow rfl (asAlu_eq_self hk)

theorem classifyBr_names {b : Bundle} (hbr : b.brOp ≠ 0#4) (hn : b.noClass = true) (ha : b.aluOp ≠ 15#4) :
    b.classifyBr.names b := by
  obtain ⟨n, hop⟩ : ∃ n, b.brOp.toNat = n := ⟨_, rfl⟩
  have hk : b.brOp = BitVec.ofNat 4 n := by rw [← hop, BitVec.ofNat_toNat, BitVec.setWidth_eq]
  have hlt : n < 16 := hop ▸ b.brOp.isLt
  have hpos : 0 < n := Nat.pos_of_ne_zero fun e => hbr (hk.trans (by rw [e]))
  have hrow : b.isBrRow (BitVec.ofNat 4 n) = true := isBrRow_iff.mpr ⟨hk, hn, ha⟩
  rw [Bundle.classifyBr, hop]
  interval_cases n <;> exact names_of_eq hrow rfl (asBr_eq_self hk)

theorem classifyLoad_names {b : Bundle} (h : b.isLoadRow b.func3 = true) : b.classifyLoad.names b := by
  obtain ⟨n, hop⟩ : ∃ n, b.func3.toNat = n := ⟨_, rfl⟩
  have hk : b.func3 = BitVec.ofNat 3 n := by rw [← hop, BitVec.ofNat_toNat, BitVec.setWidth_eq]
  have hlt : n < 8 := hop ▸ b.func3.isLt
  rw [Bundle.classifyLoad, hop]
  rw [hk] at h
  interval_cases n <;> exact names_of_eq h rfl (asLoad_eq_self h)

theorem classifyStore_names {b : Bundle} (h : b.isStoreRow (b.func3.extractLsb' 0 2) = true) : b.classifyStore.names b := by
  obtain ⟨n, hop⟩ : ∃ n, (b.func3.extractLsb' 0 2).toNat = n := ⟨_, rfl⟩
  have hk : b.func3.extractLsb' 0 2 = BitVec.ofNat 2 n := by rw [← hop, BitVec.ofNat_toNat, BitVec.setWidth_eq]
  have hlt : n < 4 := hop ▸ (b.func3.extractLsb' 0 2).isLt
  rw [Bundle.classifyStore, hop]
  rw [hk] at h
  interval_cases n <;> exact names_of_eq h rfl (asStore_eq_self h)

/-- An ill-formed bundle's canonical row is the class row whose condition it meets first (R52). -/
theorem classify_illegal {b : Bundle} (h : b.classesLegal = false) :
    b.classify.names b ∧ Machine.isIllegalRow b.classify = true := by
  cases hl : b.isLoad <;> cases hs : b.isStore <;> cases hc : b.isCsr
  case false.false.false => simp [Bundle.classesLegal, Bundle.noClass, hl, hs, hc] at h
  case true.false.false | false.true.false | false.false.true =>
    have hbr : b.brOp ≠ 0#4 := fun e => by simp [Bundle.classesLegal, hl, hs, hc, e] at h
    simp [Bundle.classify, Instr.names, Instr.wf, Instr.encode, Machine.isIllegalRow, hl, hs, hc, hbr]
  all_goals simp [Bundle.classify, Instr.names, Instr.wf, Instr.encode, Machine.isIllegalRow, hl, hs, hc]

/-- Every bundle's canonical row is well-formed and encodes as the bundle. -/
theorem classify_names (b : Bundle) : b.classify.names b := by
  cases hc : b.classesLegal with
  | false => exact (classify_illegal hc).1
  | true =>
  by_cases ha : b.aluOp = 15#4
  · rw [classify_reserved hc ha]
    exact names_of_eq (wf_aluReserved15.mpr ⟨ha, hc⟩) rfl (asAlu_eq_self ha)
  rcases classesLegal_iff.mp hc with hn | ⟨hbr, ⟨hl, hs, hc⟩ | ⟨hl, hs, hc⟩ | ⟨hl, hs, hc⟩⟩
  · rw [classify_noClass hn ha]
    split
    next hbr => exact classifyAlu_names hbr hn ha
    next hbr => exact classifyBr_names hbr hn ha
  · have h : b.isLoadRow b.func3 = true := isLoadRow_iff.mpr ⟨rfl, hbr, hl, hs, hc, ha⟩
    rw [classify_load h]
    exact classifyLoad_names h
  · have h : b.isStoreRow (b.func3.extractLsb' 0 2) = true := isStoreRow_iff.mpr ⟨rfl, hbr, hl, hs, hc, ha⟩
    rw [classify_store h]
    exact classifyStore_names h
  · have h : b.isCsrRow = true := isCsrRow_iff.mpr ⟨hbr, hl, hs, hc, ha⟩
    rw [classify_csr h]
    exact names_of_eq h rfl (asCsr_eq_self h)

/-! ### What executing an ill-formed bundle is -/

namespace Machine

/-- The well-formedness that a transaction tests is R52's two conditions. -/
theorem bundleWellFormed_eq (b : Bundle) : bundleWellFormed b = b.classesLegal := by
  cases hl : b.isLoad <;> cases hs : b.isStore <;> cases hc : b.isCsr <;>
    simp [bundleWellFormed, Bundle.classesLegal, Bundle.noClass, hl, hs, hc]

/-- A transaction of an ill-formed bundle is refused for its classes before any unit acts (R52, R139). -/
theorem execute_illegal {b : Bundle} (h : b.classesLegal = false) (s : State) : execute b s = rejectClasses s := by
  simp [execute, rejectClasses, bundleWellFormed_eq, h]

/-- An ill-formed class row that is well-formed as a term holds an ill-formed bundle. -/
theorem classesLegal_of_isIllegalRow {i : Instr} {b : Bundle} (h : i.names b) (hi : isIllegalRow i = true) :
    b.classesLegal = false := by
  obtain ⟨hwf, he⟩ := h
  cases i with
  | illegalLoadStore c | illegalLoadCsr c | illegalStoreCsr c | illegalLoadBranch c | illegalStoreBranch c | illegalCsrBranch c =>
    obtain rfl : c = b := by rw [← Bundle.unpack_pack c, Fetched.bundle.inj he, Bundle.unpack_pack]
    simp only [Instr.wf, Bool.and_eq_true, Bool.not_eq_true', bne_iff_ne] at hwf
    simp [Bundle.classesLegal, Bundle.noClass, hwf]
  | _ => cases hi

theorem nativeBundle_of_encode {i : Instr} {b : Bundle} (h : i.encode = .bundle b.pack) : nativeBundle i = some b := by
  simp only [nativeBundle, h, Bundle.unpack_pack]

/-- A row with a bundle encodes as that bundle. -/
theorem encode_of_nativeBundle {i : Instr} {b : Bundle} (h : nativeBundle i = some b) : i.encode = .bundle b.pack := by
  unfold nativeBundle at h
  split at h
  next w he => rw [he, ← Option.some.inj h, Bundle.pack_unpack]
  next => cases h

/-- A bundle under its canonical row is the bundle's transaction. -/
theorem exec_classify (b : Bundle) (s : State) : exec b.classify s = execute b s := by
  have h := classify_names b
  cases hi : isIllegalRow b.classify with
  | false => exact exec_native (nativeBundle_of_encode h.2) hi s
  | true => rw [exec_illegalRow hi, execute_illegal (classesLegal_of_isIllegalRow h hi)]

/-- Settles O6: under its canonical row and under any other that it matches, a bundle is the one transaction of its bits. -/
theorem rowNamesAgree : Obligations.RowNamesAgree := by
  intro i b s hn hwf
  rw [exec_classify]
  cases hi : isIllegalRow i with
  | false => exact exec_native hn hi s
  | true =>
    have h : i.names b := ⟨hwf hi, encode_of_nativeBundle hn⟩
    rw [exec_illegalRow hi, execute_illegal (classesLegal_of_isIllegalRow h hi)]

/-! ### The reserved rows -/

/-- A well-formed bundle with the reserved ALU selector stops in Compute, before its other fields count (R80, R139). -/
theorem execute_badAluOp {b : Bundle} {s : State} (hf : s.fatal = false) (hc : b.classesLegal = true) (ha : b.aluOp = 15#4) :
    execute b s = raiseFatal .badAluOp := by
  simp [execute, hf, bundleWellFormed_eq, hc, compute_eq, ha, aluOf_reserved]

/-- A bundle with a reserved branch selector and a legal ALU selector stops in Resolve (R100). -/
theorem execute_badBranchOp {b : Bundle} {s : State} (hf : s.fatal = false) (hc : b.classesLegal = true) (ha : b.aluOp ≠ 15#4)
    (hb : 9 ≤ b.brOp.toNat) : execute b s = raiseFatal .badBranchOp := by
  obtain ⟨v, hv⟩ := aluOf_ok ha (operand1 b s.ports) (operand2 b s.ports)
  simp [execute, hf, bundleWellFormed_eq, hc, compute_eq, hv, resolve, takenOf_reserved hb]

theorem rejectClasses_of_running {s : State} (hf : s.fatal = false) : rejectClasses s = raiseFatal .illegalBundle := by
  simp [rejectClasses, hf]

/-- The seven reserved branch rows. -/
theorem execute_asBr_reserved {s : State} (hf : s.fatal = false) (b : Bundle) {k : BitVec 4} (hk : 9 ≤ k.toNat) :
    execute (b.asBr k) s = if b.noClass then (if b.aluOp = 15#4 then raiseFatal .badAluOp else raiseFatal .badBranchOp)
      else raiseFatal .illegalBundle := by
  have hk0 : (b.asBr k).brOp ≠ 0#4 := by rintro (rfl : k = 0#4); exact absurd hk (by decide)
  have hc : (b.asBr k).classesLegal = b.noClass := by rw [← bundleWellFormed_eq, bundleWellFormed_branch hk0]; rfl
  split
  next hn =>
    rw [hn] at hc
    split
    next ha => exact execute_badAluOp hf hc ha
    next ha => exact execute_badBranchOp hf hc ha hk
  next hn =>
    rw [execute_illegal (hc.trans (Bool.eq_false_of_not_eq_true hn)), rejectClasses_of_running hf]

/-- The reserved load rows. -/
theorem execute_asLoad_reserved {s : State} (hf : s.fatal = false) (b : Bundle) {f : BitVec 3} (hw : widthOf f = .error .badMemWidth) :
    execute (b.asLoad f) s = if b.aluOp = 15#4 then raiseFatal .badAluOp else raiseFatal .badMemWidth := by
  split
  next ha => exact execute_badAluOp hf rfl ha
  next ha =>
    obtain ⟨v, hv⟩ := aluOf_ok ha (operand1 b s.ports) (operand2 b s.ports)
    exact execute_load_error hf ⟨rfl, rfl, rfl, rfl⟩ hv hw

/-- Whatever `func3[2]` is, a store row's width is that of `func3[1:0]` (R113). -/
theorem widthOf_asStore (b : Bundle) : widthOf (b.asStore 3#2).func3 = .error .badMemWidth := by
  have h : ∀ f : BitVec 3, widthOf ((f &&& 4#3) ||| (3#2).setWidth 3) = .error .badMemWidth := by decide
  exact h b.func3

/-- The reserved store row. -/
theorem execute_asStore_reserved {s : State} (hf : s.fatal = false) (b : Bundle) :
    execute (b.asStore 3#2) s = if b.aluOp = 15#4 then raiseFatal .badAluOp else raiseFatal .badMemWidth := by
  split
  next ha => exact execute_badAluOp hf rfl ha
  next ha =>
    obtain ⟨v, hv⟩ := aluOf_ok ha (operand1 b s.ports) (operand2 b s.ports)
    exact execute_store_error hf ⟨rfl, rfl, rfl, rfl⟩ hv (widthOf_asStore b)

/-- Settles O11: each reserved row is a transaction that stops at the first condition of R139 its bundle meets. -/
theorem reservedRowsStop : Obligations.ReservedRowsStop := by
  intro b s hf first branch
  have hbr : ∀ {k : BitVec 4}, 9 ≤ k.toNat → execute (b.asBr k) s = branch := execute_asBr_reserved hf b
  have hill : rejectClasses s = raiseFatal .illegalBundle := rejectClasses_of_running hf
  refine ⟨?alu, hbr (by decide), hbr (by decide), hbr (by decide), hbr (by decide), hbr (by decide), hbr (by decide),
    hbr (by decide), execute_asLoad_reserved hf b rfl, execute_asLoad_reserved hf b rfl, execute_asStore_reserved hf b,
    hill, hill, hill, hill, hill, hill⟩
  split
  next hc => exact execute_badAluOp (b := b.asAlu 15#4) hf hc rfl
  next hc =>
    exact (execute_illegal (b := b.asAlu 15#4) (Bool.eq_false_of_not_eq_true hc) s).trans hill

end Machine
end Sys2Proof
end

section
/-! SUPPORT. The encoding of RV32 words settled: the fields of a word, the decoder by opcode, the two round trips, and which words
match a row of R57 (R56 to R58). -/

namespace Sys2Proof

/-! ### The fields of a word are all of its bits (R56) -/

theorem encR_fields (w : BitVec 32) : encR (funct7Of w) (rs2Of w) (rs1Of w) (funct3Of w) (rdOf w) (opcodeOf w) = w := by
  have := w.isLt
  apply BitVec.eq_of_toNat_eq
  simp only [encR, funct7Of, rs2Of, rs1Of, funct3Of, rdOf, opcodeOf, BitVec.extractLsb'_toNat, BitVec.toNat_ofNat,
    Nat.shiftRight_eq_div_pow]
  omega

theorem encI_fields (w : BitVec 32) : encI (immIOf w) (rs1Of w) (funct3Of w) (rdOf w) (opcodeOf w) = w := by
  have := w.isLt
  apply BitVec.eq_of_toNat_eq
  simp only [encI, immIOf, rs1Of, funct3Of, rdOf, opcodeOf, BitVec.extractLsb'_toNat, BitVec.toNat_ofNat,
    Nat.shiftRight_eq_div_pow]
  omega

theorem encU_fields (w : BitVec 32) : encU (immUOf w) (rdOf w) (opcodeOf w) = w := by
  have := w.isLt
  apply BitVec.eq_of_toNat_eq
  simp only [encU, immUOf, rdOf, opcodeOf, BitVec.extractLsb'_toNat, BitVec.toNat_ofNat, Nat.shiftRight_eq_div_pow]
  omega

theorem encS_fields (w : BitVec 32) : encS (immSOf w) (rs2Of w) (rs1Of w) (funct3Of w) (opcodeOf w) = w := by
  have h7 := (funct7Of w).isLt
  have hr := (rdOf w).isLt
  have hi7 : (immSOf w).extractLsb' 5 7 = funct7Of w := by
    apply BitVec.eq_of_toNat_eq
    simp only [immSOf, BitVec.extractLsb'_toNat, BitVec.toNat_ofNat, Nat.shiftRight_eq_div_pow]; omega
  have hir : (immSOf w).extractLsb' 0 5 = rdOf w := by
    apply BitVec.eq_of_toNat_eq
    simp only [immSOf, BitVec.extractLsb'_toNat, BitVec.toNat_ofNat, Nat.shiftRight_eq_div_pow]; omega
  rw [encS, hi7, hir, encR_fields]

/-- The four slices of a B immediate are those of the word that it was put together from. -/
theorem slices_immBOf (w : BitVec 32) :
    ((immBOf w).extractLsb' 1 4).toNat = (w.extractLsb' 8 4).toNat ∧ ((immBOf w).extractLsb' 5 6).toNat = (w.extractLsb' 25 6).toNat ∧
      ((immBOf w).extractLsb' 11 1).toNat = (w.extractLsb' 7 1).toNat ∧
      ((immBOf w).extractLsb' 12 1).toNat = (w.extractLsb' 31 1).toNat := by
  have h4 := (w.extractLsb' 8 4).isLt; have h6 := (w.extractLsb' 25 6).isLt
  have h1 := (w.extractLsb' 7 1).isLt; have h1' := (w.extractLsb' 31 1).isLt
  refine ⟨?_, ?_, ?_, ?_⟩ <;> rw [BitVec.extractLsb'_toNat, immBOf, BitVec.toNat_ofNat, Nat.shiftRight_eq_div_pow] <;> omega

theorem encB_fields (w : BitVec 32) : encB (immBOf w) (rs2Of w) (rs1Of w) (funct3Of w) (opcodeOf w) = w := by
  have hw := w.isLt
  obtain ⟨h1, h5, h11, h12⟩ := slices_immBOf w
  have h7 : BitVec.ofNat 7 ((w.extractLsb' 25 6).toNat + 2 ^ 6 * (w.extractLsb' 31 1).toNat) = funct7Of w := by
    apply BitVec.eq_of_toNat_eq
    simp only [funct7Of, BitVec.extractLsb'_toNat, BitVec.toNat_ofNat, Nat.shiftRight_eq_div_pow]; omega
  have hrd : BitVec.ofNat 5 ((w.extractLsb' 7 1).toNat + 2 * (w.extractLsb' 8 4).toNat) = rdOf w := by
    apply BitVec.eq_of_toNat_eq
    simp only [rdOf, BitVec.extractLsb'_toNat, BitVec.toNat_ofNat, Nat.shiftRight_eq_div_pow]; omega
  rw [encB, h1, h5, h11, h12, h7, hrd, encR_fields]

/-- The four slices of a J immediate are those of the word that it was put together from. -/
theorem slices_immJOf (w : BitVec 32) :
    ((immJOf w).extractLsb' 1 10).toNat = (w.extractLsb' 21 10).toNat ∧
      ((immJOf w).extractLsb' 11 1).toNat = (w.extractLsb' 20 1).toNat ∧
      ((immJOf w).extractLsb' 12 8).toNat = (w.extractLsb' 12 8).toNat ∧
      ((immJOf w).extractLsb' 20 1).toNat = (w.extractLsb' 31 1).toNat := by
  have h10 := (w.extractLsb' 21 10).isLt; have h1 := (w.extractLsb' 20 1).isLt
  have h8 := (w.extractLsb' 12 8).isLt; have h1' := (w.extractLsb' 31 1).isLt
  refine ⟨?_, ?_, ?_, ?_⟩ <;> rw [BitVec.extractLsb'_toNat, immJOf, BitVec.toNat_ofNat, Nat.shiftRight_eq_div_pow] <;> omega

theorem encJ_fields (w : BitVec 32) : encJ (immJOf w) (rdOf w) (opcodeOf w) = w := by
  have hw := w.isLt
  obtain ⟨h1, h11, h12, h20⟩ := slices_immJOf w
  have hu : BitVec.ofNat 20 ((w.extractLsb' 12 8).toNat + 2 ^ 8 * (w.extractLsb' 20 1).toNat
      + 2 ^ 9 * (w.extractLsb' 21 10).toNat + 2 ^ 19 * (w.extractLsb' 31 1).toNat) = immUOf w := by
    apply BitVec.eq_of_toNat_eq
    simp only [immUOf, BitVec.extractLsb'_toNat, BitVec.toNat_ofNat, Nat.shiftRight_eq_div_pow]; omega
  rw [encJ, h1, h11, h12, h20, hu, encU_fields]

/-- The bits of FENCE's fm, pred and succ are its upper field (R57). -/
theorem immIOf_fence (w : BitVec 32) : BitVec.ofNat 12 ((w.extractLsb' 20 4).toNat + 2 ^ 4 * (w.extractLsb' 24 4).toNat
    + 2 ^ 8 * (w.extractLsb' 28 4).toNat) = immIOf w := by
  have hw := w.isLt
  apply BitVec.eq_of_toNat_eq
  simp only [immIOf, BitVec.extractLsb'_toNat, BitVec.toNat_ofNat, Nat.shiftRight_eq_div_pow]; omega

/-- The slices of the upper field are slices of the word. -/
theorem fence_fields {w : BitVec 32} {fm pred succ : BitVec 4}
    (h : immIOf w = BitVec.ofNat 12 (succ.toNat + 2 ^ 4 * pred.toNat + 2 ^ 8 * fm.toNat)) :
    w.extractLsb' 28 4 = fm ∧ w.extractLsb' 24 4 = pred ∧ w.extractLsb' 20 4 = succ := by
  have hw := w.isLt; have hf := fm.isLt; have hp := pred.isLt; have hs := succ.isLt
  have h := congrArg BitVec.toNat h
  simp only [immIOf, BitVec.extractLsb'_toNat, BitVec.toNat_ofNat, Nat.shiftRight_eq_div_pow] at h
  refine ⟨?_, ?_, ?_⟩ <;> apply BitVec.eq_of_toNat_eq <;>
    simp only [BitVec.extractLsb'_toNat, Nat.shiftRight_eq_div_pow] <;> omega

/-- A B immediate that the decoder reads is even. -/
theorem immBOf_even (w : BitVec 32) : (immBOf w).getLsbD 0 = false := by
  simp only [immBOf, BitVec.getLsbD_ofNat, Nat.testBit_zero]
  simp
  omega

theorem immJOf_even (w : BitVec 32) : (immJOf w).getLsbD 0 = false := by
  simp only [immJOf, BitVec.getLsbD_ofNat, Nat.testBit_zero]
  simp
  omega

/-! ### The decoder by opcode -/

section
variable {w : BitVec 32}

theorem decodeWord_lui (h : opcodeOf w = 0x37#7) : decodeWord w = .ok (.lui (rdOf w) (immUOf w)) := by
  simp [decodeWord, lowBits_eq, h]
theorem decodeWord_auipc (h : opcodeOf w = 0x17#7) : decodeWord w = .ok (.auipc (rdOf w) (immUOf w)) := by
  simp [decodeWord, lowBits_eq, h]
theorem decodeWord_jal (h : opcodeOf w = 0x6F#7) : decodeWord w = .ok (.jal (rdOf w) (immJOf w)) := by
  simp [decodeWord, lowBits_eq, h]
theorem decodeWord_jalr (h : opcodeOf w = 0x67#7) : decodeWord w =
    if funct3Of w = 0#3 then .ok (.jalr (rdOf w) (rs1Of w) (immIOf w)) else .error .funct := by
  simp [decodeWord, lowBits_eq, h]
theorem decodeWord_branch (h : opcodeOf w = 0x63#7) : decodeWord w = decodeBranch w := by simp [decodeWord, lowBits_eq, h]
theorem decodeWord_load (h : opcodeOf w = 0x03#7) : decodeWord w = decodeLoad w := by simp [decodeWord, lowBits_eq, h]
theorem decodeWord_store (h : opcodeOf w = 0x23#7) : decodeWord w = decodeStore w := by simp [decodeWord, lowBits_eq, h]
theorem decodeWord_opImm (h : opcodeOf w = 0x13#7) : decodeWord w = decodeOpImm w := by simp [decodeWord, lowBits_eq, h]
theorem decodeWord_op (h : opcodeOf w = 0x33#7) : decodeWord w = decodeOp w := by simp [decodeWord, lowBits_eq, h]
theorem decodeWord_miscMem (h : opcodeOf w = 0x0F#7) : decodeWord w = decodeMiscMem w := by simp [decodeWord, lowBits_eq, h]
theorem decodeWord_fence (h : opcodeOf w = 0x0F#7) (h3 : funct3Of w = 0#3) : decodeWord w =
    .ok (.fence (w.extractLsb' 28 4) (w.extractLsb' 24 4) (w.extractLsb' 20 4) (rs1Of w) (rdOf w)) := by
  simp [decodeWord_miscMem h, decodeMiscMem, h3]
theorem decodeWord_system (h : opcodeOf w = 0x73#7) : decodeWord w = decodeSystem w := by simp [decodeWord, lowBits_eq, h]

end

/-! ### From a term to its word and back -/

/-- Decoding inverts encoding on the rows that are RV32 words. -/
theorem decode_encode_word {i : Instr} (hi : i.wf = true) {w : BitVec 32} (he : i.encode = .word w) :
    decode i.encode = .ok i := by
  cases i with
  | lui rd imm => simp [Instr.encode, decode, decodeWord_lui]
  | auipc rd imm => simp [Instr.encode, decode, decodeWord_auipc]
  | jal rd imm =>
    have h0 : imm.getLsbD 0 = false := by simpa [Instr.wf] using hi
    simp [Instr.encode, decode, decodeWord_jal, immJOf_encJ _ _ _ h0]
  | jalr rd rs1 imm => simp [Instr.encode, decode, decodeWord_jalr]
  | beq rs1 rs2 imm | bne rs1 rs2 imm | blt rs1 rs2 imm | bge rs1 rs2 imm | bltu rs1 rs2 imm | bgeu rs1 rs2 imm =>
    have h0 : imm.getLsbD 0 = false := by simpa [Instr.wf] using hi
    simp [Instr.encode, decode, decodeWord_branch, decodeBranch, immBOf_encB _ _ _ _ _ h0]
  | lb rd rs1 imm | lh rd rs1 imm | lw rd rs1 imm | lbu rd rs1 imm | lhu rd rs1 imm =>
    simp [Instr.encode, decode, decodeWord_load, decodeLoad]
  | sb rs1 rs2 imm | sh rs1 rs2 imm | sw rs1 rs2 imm => simp [Instr.encode, decode, decodeWord_store, decodeStore]
  | addi rd rs1 imm | slti rd rs1 imm | sltiu rd rs1 imm | xori rd rs1 imm | ori rd rs1 imm | andi rd rs1 imm
  | slli rd rs1 sh | srli rd rs1 sh | srai rd rs1 sh => simp [Instr.encode, decode, decodeWord_opImm, decodeOpImm]
  | add rd rs1 rs2 | sll rd rs1 rs2 | slt rd rs1 rs2 | sltu rd rs1 rs2 | xor rd rs1 rs2 | srl rd rs1 rs2 | or rd rs1 rs2
  | and rd rs1 rs2 => simp [Instr.encode, decode, decodeWord_op, decodeOp, decodeOpBase]
  | sub rd rs1 rs2 | sra rd rs1 rs2 => simp [Instr.encode, decode, decodeWord_op, decodeOp, decodeOpAlt]
  | mul rd rs1 rs2 | mulh rd rs1 rs2 | mulhsu rd rs1 rs2 | mulhu rd rs1 rs2 | div rd rs1 rs2 | divu rd rs1 rs2 | rem rd rs1 rs2
  | remu rd rs1 rs2 => simp [Instr.encode, decode, decodeWord_op, decodeOp, decodeOpMul]
  | fence fm pred succ rs1 rd =>
    obtain ⟨hfm, hpred, hsucc⟩ := fence_fields (immIOf_encI rs1 0#3 rd 0x0F#7 _)
    rw [Instr.encode, decode, decodeWord_fence (opcodeOf_encI ..) (funct3Of_encI ..), hfm, hpred, hsucc, rs1Of_encI, rdOf_encI]
  | fenceI rd rs1 imm => simp [Instr.encode, decode, decodeWord_miscMem, decodeMiscMem]
  | csrrw rd rs1 csr | csrrs rd rs1 csr | csrrc rd rs1 csr | csrrwi rd z csr | csrrsi rd z csr | csrrci rd z csr =>
    simp [Instr.encode, decode, decodeWord_system, decodeSystem]
  | ecall | ebreak => rfl
  | _ => cases he

/-- Settles O1: a term is a bundle row or an RV32 row, and the decoder reads back the fields that the encoder put. -/
theorem decodeEncodeRoundTrip : Obligations.DecodeEncodeRoundTrip := by
  intro i hi
  cases he : i.encode with
  | bundle w => exact he ▸ decode_encode_bundle hi he
  | word w => exact he ▸ decode_encode_word hi he

/-! ### From a word to its term and back -/

/-- The term is well-formed and is the one of the word `w`. -/
def Instr.reads (i : Instr) (w : BitVec 32) : Prop := i.wf = true ∧ i.encode = .word w

section
variable {w : BitVec 32} {i : Instr}

theorem encI_of_fields {f3 : BitVec 3} {op : BitVec 7} (hop : opcodeOf w = op) (hf : (funct3Of w).toNat = f3.toNat) :
    encI (immIOf w) (rs1Of w) f3 (rdOf w) op = w := by
  rw [← hop, ← BitVec.eq_of_toNat_eq hf, encI_fields]

theorem encS_of_fields {f3 : BitVec 3} {op : BitVec 7} (hop : opcodeOf w = op) (hf : (funct3Of w).toNat = f3.toNat) :
    encS (immSOf w) (rs2Of w) (rs1Of w) f3 op = w := by
  rw [← hop, ← BitVec.eq_of_toNat_eq hf, encS_fields]

theorem encB_of_fields {f3 : BitVec 3} {op : BitVec 7} (hop : opcodeOf w = op) (hf : (funct3Of w).toNat = f3.toNat) :
    encB (immBOf w) (rs2Of w) (rs1Of w) f3 op = w := by
  rw [← hop, ← BitVec.eq_of_toNat_eq hf, encB_fields]

theorem encR_of_fields {f7 : BitVec 7} {f3 : BitVec 3} {op : BitVec 7} (hop : opcodeOf w = op)
    (hf : (funct3Of w).toNat = f3.toNat) (h7 : funct7Of w = f7) : encR f7 (rs2Of w) (rs1Of w) f3 (rdOf w) op = w := by
  rw [← hop, ← BitVec.eq_of_toNat_eq hf, ← h7, encR_fields]

theorem encU_of_fields {op : BitVec 7} (hop : opcodeOf w = op) : encU (immUOf w) (rdOf w) op = w := by
  rw [← hop, encU_fields]

theorem encJ_of_fields {op : BitVec 7} (hop : opcodeOf w = op) : encJ (immJOf w) (rdOf w) op = w := by
  rw [← hop, encJ_fields]

/-- The codes of `funct3`. -/
theorem funct3_cases (w : BitVec 32) : ∃ n, n < 8 ∧ (funct3Of w).toNat = n := ⟨_, (funct3Of w).isLt, rfl⟩

theorem decodeBranch_reads (hop : opcodeOf w = 0x63#7) (h : decodeBranch w = .ok i) : i.reads w := by
  obtain ⟨n, hlt, hn⟩ := funct3_cases w
  have heven : (!(immBOf w).getLsbD 0) = true := by rw [immBOf_even]; rfl
  rw [decodeBranch, hn] at h
  interval_cases n <;> cases h <;> exact ⟨heven, congrArg Fetched.word (encB_of_fields hop hn)⟩

theorem decodeLoad_reads (hop : opcodeOf w = 0x03#7) (h : decodeLoad w = .ok i) : i.reads w := by
  obtain ⟨n, hlt, hn⟩ := funct3_cases w
  rw [decodeLoad, hn] at h
  interval_cases n <;> cases h <;> exact ⟨rfl, congrArg Fetched.word (encI_of_fields hop hn)⟩

theorem decodeStore_reads (hop : opcodeOf w = 0x23#7) (h : decodeStore w = .ok i) : i.reads w := by
  obtain ⟨n, hlt, hn⟩ := funct3_cases w
  rw [decodeStore, hn] at h
  interval_cases n <;> cases h <;> exact ⟨rfl, congrArg Fetched.word (encS_of_fields hop hn)⟩

theorem decodeOpImm_reads (hop : opcodeOf w = 0x13#7) (h : decodeOpImm w = .ok i) : i.reads w := by
  obtain ⟨n, hlt, hn⟩ := funct3_cases w
  rw [decodeOpImm, hn] at h
  obtain rfl | rfl | hn' : n = 1 ∨ n = 5 ∨ (n = 0 ∨ n = 2 ∨ n = 3 ∨ n = 4 ∨ n = 6 ∨ n = 7) := by omega
  · simp only at h
    split at h <;> cases h
    next h7 => exact ⟨rfl, congrArg Fetched.word (encR_of_fields hop hn (eq_of_beq h7))⟩
  · simp only at h
    split at h
    next h7 => cases h; exact ⟨rfl, congrArg Fetched.word (encR_of_fields hop hn (eq_of_beq h7))⟩
    next =>
      split at h <;> cases h
      next h7 => exact ⟨rfl, congrArg Fetched.word (encR_of_fields hop hn (eq_of_beq h7))⟩
  · rcases hn' with rfl | rfl | rfl | rfl | rfl | rfl <;> cases h <;> exact ⟨rfl, congrArg Fetched.word (encI_of_fields hop hn)⟩

theorem decodeOpBase_reads (hop : opcodeOf w = 0x33#7) (h7 : funct7Of w = 0x00#7) (h : decodeOpBase w = .ok i) : i.reads w := by
  obtain ⟨n, hlt, hn⟩ := funct3_cases w
  rw [decodeOpBase, hn] at h
  interval_cases n <;> cases h <;> exact ⟨rfl, congrArg Fetched.word (encR_of_fields hop hn h7)⟩

theorem decodeOpAlt_reads (hop : opcodeOf w = 0x33#7) (h7 : funct7Of w = 0x20#7) (h : decodeOpAlt w = .ok i) : i.reads w := by
  obtain ⟨n, hlt, hn⟩ := funct3_cases w
  rw [decodeOpAlt, hn] at h
  interval_cases n <;> cases h <;> exact ⟨rfl, congrArg Fetched.word (encR_of_fields hop hn h7)⟩

theorem decodeOpMul_reads (hop : opcodeOf w = 0x33#7) (h7 : funct7Of w = 0x01#7) (h : decodeOpMul w = .ok i) : i.reads w := by
  obtain ⟨n, hlt, hn⟩ := funct3_cases w
  rw [decodeOpMul, hn] at h
  interval_cases n <;> cases h <;> exact ⟨rfl, congrArg Fetched.word (encR_of_fields hop hn h7)⟩

theorem decodeOp_reads (hop : opcodeOf w = 0x33#7) (h : decodeOp w = .ok i) : i.reads w := by
  simp only [decodeOp, beq_iff_eq] at h
  split at h
  next h7 => exact decodeOpBase_reads hop h7 h
  next =>
  split at h
  next h7 => exact decodeOpAlt_reads hop h7 h
  next =>
  split at h
  next h7 => exact decodeOpMul_reads hop h7 h
  next => cases h

theorem decodeMiscMem_reads (hop : opcodeOf w = 0x0F#7) (h : decodeMiscMem w = .ok i) : i.reads w := by
  obtain ⟨n, hlt, hn⟩ := funct3_cases w
  rw [decodeMiscMem, hn] at h
  interval_cases n <;> cases h
  · refine ⟨rfl, congrArg Fetched.word ?_⟩
    rw [immIOf_fence]
    exact encI_of_fields hop hn
  · exact ⟨rfl, congrArg Fetched.word (encI_of_fields hop hn)⟩

theorem decodeSystem_reads (hop : opcodeOf w = 0x73#7) (h : decodeSystem w = .ok i) : i.reads w := by
  obtain ⟨n, hlt, hn⟩ := funct3_cases w
  rw [decodeSystem, hn] at h
  interval_cases n
  · simp only [beq_iff_eq] at h
    split at h
    next hw => cases h; exact ⟨rfl, congrArg Fetched.word hw.symm⟩
    next =>
      split at h <;> cases h
      next hw => exact ⟨rfl, congrArg Fetched.word hw.symm⟩
  all_goals cases h <;> exact ⟨rfl, congrArg Fetched.word (encI_of_fields hop hn)⟩

/-- Whatever word decodes, its term is well-formed and encodes as the word. -/
theorem decodeWord_reads (h : decodeWord w = .ok i) : i.reads w := by
  unfold decodeWord at h
  split at h
  next => cases h
  next =>
  split at h
  next hop => cases h; exact ⟨rfl, congrArg Fetched.word (encU_of_fields (BitVec.eq_of_toNat_eq hop))⟩
  next hop => cases h; exact ⟨rfl, congrArg Fetched.word (encU_of_fields (BitVec.eq_of_toNat_eq hop))⟩
  next hop =>
    cases h
    exact ⟨by rw [Instr.wf, immJOf_even]; rfl, congrArg Fetched.word (encJ_of_fields (BitVec.eq_of_toNat_eq hop))⟩
  next hop =>
    split at h <;> cases h
    next hf => exact ⟨rfl, congrArg Fetched.word (encI_of_fields (BitVec.eq_of_toNat_eq hop)
      (congrArg BitVec.toNat (eq_of_beq hf)))⟩
  next hop => exact decodeBranch_reads (BitVec.eq_of_toNat_eq hop) h
  next hop => exact decodeLoad_reads (BitVec.eq_of_toNat_eq hop) h
  next hop => exact decodeStore_reads (BitVec.eq_of_toNat_eq hop) h
  next hop => exact decodeOpImm_reads (BitVec.eq_of_toNat_eq hop) h
  next hop => exact decodeOp_reads (BitVec.eq_of_toNat_eq hop) h
  next hop => exact decodeMiscMem_reads (BitVec.eq_of_toNat_eq hop) h
  next hop => exact decodeSystem_reads (BitVec.eq_of_toNat_eq hop) h
  next => cases h

end

/-- Settles O2: the fields of a bundle or of a word are all of its bits, and the term keeps every one that its row leaves free. -/
theorem encodeDecodeRoundTrip : Obligations.EncodeDecodeRoundTrip := by
  intro f i h
  cases f with
  | bundle w =>
    cases h
    obtain ⟨hwf, he⟩ := classify_names (Bundle.unpack w)
    exact ⟨hwf, he.trans (congrArg Fetched.bundle (Bundle.pack_unpack w))⟩
  | word w => exact decodeWord_reads h

/-- Settles O3: each item is decoded by evaluation. -/
theorem decodesSpecWords : Obligations.DecodesSpecWords :=
  ⟨rfl, rfl, rfl, rfl, rfl, rfl, rfl, rfl, rfl, rfl, rfl, rfl⟩

/-! ### Which words match a row of R57 -/

section
variable {w v : BitVec 32}

theorem opcodeOf_and (w m : BitVec 32) : opcodeOf (w &&& m) = opcodeOf w &&& opcodeOf m := BitVec.extractLsb'_and
theorem rdOf_and (w m : BitVec 32) : rdOf (w &&& m) = rdOf w &&& rdOf m := BitVec.extractLsb'_and
theorem funct3Of_and (w m : BitVec 32) : funct3Of (w &&& m) = funct3Of w &&& funct3Of m := BitVec.extractLsb'_and
theorem rs1Of_and (w m : BitVec 32) : rs1Of (w &&& m) = rs1Of w &&& rs1Of m := BitVec.extractLsb'_and
theorem rs2Of_and (w m : BitVec 32) : rs2Of (w &&& m) = rs2Of w &&& rs2Of m := BitVec.extractLsb'_and
theorem funct7Of_and (w m : BitVec 32) : funct7Of (w &&& m) = funct7Of w &&& funct7Of m := BitVec.extractLsb'_and

/-- A mask acts on each field of a word. -/
theorem and_eq_encR (w m : BitVec 32) : w &&& m = encR (funct7Of w &&& funct7Of m) (rs2Of w &&& rs2Of m) (rs1Of w &&& rs1Of m)
    (funct3Of w &&& funct3Of m) (rdOf w &&& rdOf m) (opcodeOf w &&& opcodeOf m) := by
  rw [← encR_fields (w &&& m), opcodeOf_and, rdOf_and, funct3Of_and, rs1Of_and, rs2Of_and, funct7Of_and]

/-- The mask of the rows that fix an opcode. -/
theorem and_mask_opcode (w : BitVec 32) : w &&& 0x0000007F#32 = encR 0#7 0#5 0#5 0#3 0#5 (opcodeOf w) := by
  rw [and_eq_encR]
  congr 1
  case e_opcode => exact BitVec.and_allOnes
  all_goals exact BitVec.and_zero

/-- The mask of the rows that fix an opcode and a funct3. -/
theorem and_mask_funct3 (w : BitVec 32) : w &&& 0x0000707F#32 = encR 0#7 0#5 0#5 (funct3Of w) 0#5 (opcodeOf w) := by
  rw [and_eq_encR]
  congr 1
  case e_opcode | e_funct3 => exact BitVec.and_allOnes
  all_goals exact BitVec.and_zero

/-- The mask of the rows that fix an opcode, a funct3 and a funct7. -/
theorem and_mask_funct7 (w : BitVec 32) : w &&& 0xFE00707F#32 = encR (funct7Of w) 0#5 0#5 (funct3Of w) 0#5 (opcodeOf w) := by
  rw [and_eq_encR]
  congr 1
  case e_opcode | e_funct3 | e_funct7 => exact BitVec.and_allOnes
  all_goals exact BitVec.and_zero

theorem fields_of_match_opcode (h : w &&& 0x0000007F#32 = v) : opcodeOf w = opcodeOf v := by
  rw [← h, and_mask_opcode, opcodeOf_encR]

theorem fields_of_match_funct3 (h : w &&& 0x0000707F#32 = v) : opcodeOf w = opcodeOf v ∧ funct3Of w = funct3Of v := by
  rw [← h, and_mask_funct3, opcodeOf_encR, funct3Of_encR]
  exact ⟨rfl, rfl⟩

theorem fields_of_match_funct7 (h : w &&& 0xFE00707F#32 = v) :
    opcodeOf w = opcodeOf v ∧ funct3Of w = funct3Of v ∧ funct7Of w = funct7Of v := by
  rw [← h, and_mask_funct7, opcodeOf_encR, funct3Of_encR, funct7Of_encR]
  exact ⟨rfl, rfl, rfl⟩

/-! ### A word that matches a row has an instruction with a bundle -/

/-- The word decodes to an instruction that R58 does not refuse. -/
def HasBundle (w : BitVec 32) : Prop := ∃ i, decodeWord w = .ok i ∧ Machine.isRefusedRow i = false

theorem hasBundle_branch (hop : opcodeOf w = 0x63#7) (hf : funct3Of w ∈ [0#3, 1#3, 4#3, 5#3, 6#3, 7#3]) : HasBundle w := by
  rw [HasBundle, decodeWord_branch hop, decodeBranch]
  simp only [List.mem_cons, List.not_mem_nil, or_false] at hf
  rcases hf with hf | hf | hf | hf | hf | hf <;> rw [hf] <;> exact ⟨_, rfl, rfl⟩

theorem hasBundle_load (hop : opcodeOf w = 0x03#7) (hf : funct3Of w ∈ [0#3, 1#3, 2#3, 4#3, 5#3]) : HasBundle w := by
  rw [HasBundle, decodeWord_load hop, decodeLoad]
  simp only [List.mem_cons, List.not_mem_nil, or_false] at hf
  rcases hf with hf | hf | hf | hf | hf <;> rw [hf] <;> exact ⟨_, rfl, rfl⟩

theorem hasBundle_store (hop : opcodeOf w = 0x23#7) (hf : funct3Of w ∈ [0#3, 1#3, 2#3]) : HasBundle w := by
  rw [HasBundle, decodeWord_store hop, decodeStore]
  simp only [List.mem_cons, List.not_mem_nil, or_false] at hf
  rcases hf with hf | hf | hf <;> rw [hf] <;> exact ⟨_, rfl, rfl⟩

theorem hasBundle_opImm (hop : opcodeOf w = 0x13#7) (hf : funct3Of w ∈ [0#3, 2#3, 3#3, 4#3, 6#3, 7#3]) : HasBundle w := by
  rw [HasBundle, decodeWord_opImm hop, decodeOpImm]
  simp only [List.mem_cons, List.not_mem_nil, or_false] at hf
  rcases hf with hf | hf | hf | hf | hf | hf <;> rw [hf] <;> exact ⟨_, rfl, rfl⟩

theorem hasBundle_shiftImm (hop : opcodeOf w = 0x13#7)
    (hf : (funct3Of w, funct7Of w) ∈ [(1#3, 0x00#7), (5#3, 0x00#7), (5#3, 0x20#7)]) : HasBundle w := by
  rw [HasBundle, decodeWord_opImm hop, decodeOpImm]
  simp only [List.mem_cons, List.not_mem_nil, or_false, Prod.mk.injEq] at hf
  rcases hf with ⟨hf, h7⟩ | ⟨hf, h7⟩ | ⟨hf, h7⟩ <;> rw [hf, h7] <;> exact ⟨_, rfl, rfl⟩

theorem hasBundle_opBase (hop : opcodeOf w = 0x33#7) (h7 : funct7Of w = 0x00#7) : HasBundle w := by
  obtain ⟨n, hlt, hn⟩ := funct3_cases w
  rw [HasBundle, decodeWord_op hop, decodeOp, h7, decodeOpBase, hn]
  interval_cases n <;> exact ⟨_, rfl, rfl⟩

theorem hasBundle_opAlt (hop : opcodeOf w = 0x33#7) (h7 : funct7Of w = 0x20#7) (hf : funct3Of w ∈ [0#3, 5#3]) : HasBundle w := by
  rw [HasBundle, decodeWord_op hop, decodeOp, h7, decodeOpAlt]
  simp only [List.mem_cons, List.not_mem_nil, or_false] at hf
  rcases hf with hf | hf <;> rw [hf] <;> exact ⟨_, rfl, rfl⟩

theorem hasBundle_opMul (hop : opcodeOf w = 0x33#7) (h7 : funct7Of w = 0x01#7) (hf : funct3Of w ∈ [0#3, 1#3, 2#3, 3#3]) :
    HasBundle w := by
  rw [HasBundle, decodeWord_op hop, decodeOp, h7, decodeOpMul]
  simp only [List.mem_cons, List.not_mem_nil, or_false] at hf
  rcases hf with hf | hf | hf | hf <;> rw [hf] <;> exact ⟨_, rfl, rfl⟩

theorem hasBundle_csr (hop : opcodeOf w = 0x73#7) (hf : funct3Of w ∈ [1#3, 2#3, 3#3, 5#3, 6#3, 7#3]) : HasBundle w := by
  rw [HasBundle, decodeWord_system hop, decodeSystem]
  simp only [List.mem_cons, List.not_mem_nil, or_false] at hf
  rcases hf with hf | hf | hf | hf | hf | hf <;> rw [hf] <;> exact ⟨_, rfl, rfl⟩

theorem hasBundle_of_rv32Jumps {r : BitVec 32 × BitVec 32} (hr : r ∈ Machine.rv32Jumps) (hw : w &&& r.2 = r.1) : HasBundle w := by
  have key : ∀ r ∈ Machine.rv32Jumps, r.2 = 0x0000007F#32 ∧ opcodeOf r.1 ∈ [0x37#7, 0x17#7, 0x6F#7] ∨
      r.2 = 0x0000707F#32 ∧ (opcodeOf r.1 = 0x67#7 ∧ funct3Of r.1 = 0#3 ∨
        opcodeOf r.1 = 0x63#7 ∧ funct3Of r.1 ∈ [0#3, 1#3, 4#3, 5#3, 6#3, 7#3]) := by simp [Machine.rv32Jumps, opcodeOf, funct3Of]
  rcases key r hr with ⟨hm, hop⟩ | ⟨hm, h⟩ <;> rw [hm] at hw
  · rw [← fields_of_match_opcode hw] at hop
    simp only [List.mem_cons, List.not_mem_nil, or_false] at hop
    rcases hop with hop | hop | hop
    · exact ⟨_, decodeWord_lui hop, rfl⟩
    · exact ⟨_, decodeWord_auipc hop, rfl⟩
    · exact ⟨_, decodeWord_jal hop, rfl⟩
  · obtain ⟨eop, ef⟩ := fields_of_match_funct3 hw
    rw [← eop, ← ef] at h
    rcases h with ⟨hop, hf⟩ | ⟨hop, hf⟩
    · exact ⟨_, (decodeWord_jalr hop).trans (if_pos hf), rfl⟩
    · exact hasBundle_branch hop hf

theorem hasBundle_of_rv32Memory {r : BitVec 32 × BitVec 32} (hr : r ∈ Machine.rv32Memory) (hw : w &&& r.2 = r.1) : HasBundle w := by
  have key : ∀ r ∈ Machine.rv32Memory, r.2 = 0x0000707F#32 ∧ (opcodeOf r.1 = 0x03#7 ∧ funct3Of r.1 ∈ [0#3, 1#3, 2#3, 4#3, 5#3] ∨
      opcodeOf r.1 = 0x23#7 ∧ funct3Of r.1 ∈ [0#3, 1#3, 2#3]) := by simp [Machine.rv32Memory, opcodeOf, funct3Of]
  obtain ⟨hm, h⟩ := key r hr
  obtain ⟨eop, ef⟩ := fields_of_match_funct3 (hm ▸ hw)
  rw [← eop, ← ef] at h
  rcases h with ⟨hop, hf⟩ | ⟨hop, hf⟩
  · exact hasBundle_load hop hf
  · exact hasBundle_store hop hf

theorem hasBundle_of_rv32Immediate {r : BitVec 32 × BitVec 32} (hr : r ∈ Machine.rv32Immediate) (hw : w &&& r.2 = r.1) : HasBundle w := by
  have key : ∀ r ∈ Machine.rv32Immediate, opcodeOf r.1 = 0x13#7 ∧
      (r.2 = 0x0000707F#32 ∧ funct3Of r.1 ∈ [0#3, 2#3, 3#3, 4#3, 6#3, 7#3] ∨
        r.2 = 0xFE00707F#32 ∧ (funct3Of r.1, funct7Of r.1) ∈ [(1#3, 0x00#7), (5#3, 0x00#7), (5#3, 0x20#7)]) := by
    simp [Machine.rv32Immediate, opcodeOf, funct3Of, funct7Of]
  obtain ⟨hop, ⟨hm, hf⟩ | ⟨hm, hf⟩⟩ := key r hr
  · obtain ⟨eop, ef⟩ := fields_of_match_funct3 (hm ▸ hw)
    exact hasBundle_opImm (eop.trans hop) (ef ▸ hf)
  · obtain ⟨eop, ef, e7⟩ := fields_of_match_funct7 (hm ▸ hw)
    exact hasBundle_shiftImm (eop.trans hop) (by rwa [ef, e7])

theorem hasBundle_of_rv32Register {r : BitVec 32 × BitVec 32} (hr : r ∈ Machine.rv32Register) (hw : w &&& r.2 = r.1) : HasBundle w := by
  have key : ∀ r ∈ Machine.rv32Register, r.2 = 0xFE00707F#32 ∧ opcodeOf r.1 = 0x33#7 ∧ (funct7Of r.1 = 0x00#7 ∨
      funct7Of r.1 = 0x20#7 ∧ funct3Of r.1 ∈ [0#3, 5#3] ∨ funct7Of r.1 = 0x01#7 ∧ funct3Of r.1 ∈ [0#3, 1#3, 2#3, 3#3]) := by
    simp [Machine.rv32Register, opcodeOf, funct3Of, funct7Of]
  obtain ⟨hm, h⟩ := key r hr
  obtain ⟨eop, ef, e7⟩ := fields_of_match_funct7 (hm ▸ hw)
  rw [← eop, ← ef, ← e7] at h
  obtain ⟨hop, h7 | ⟨h7, hf⟩ | ⟨h7, hf⟩⟩ := h
  · exact hasBundle_opBase hop h7
  · exact hasBundle_opAlt hop h7 hf
  · exact hasBundle_opMul hop h7 hf

theorem hasBundle_of_rv32System {r : BitVec 32 × BitVec 32} (hr : r ∈ Machine.rv32System) (hw : w &&& r.2 = r.1) : HasBundle w := by
  have key : ∀ r ∈ Machine.rv32System, r.2 = 0x0000707F#32 ∧ (opcodeOf r.1 = 0x0F#7 ∧ funct3Of r.1 = 0#3 ∨
      opcodeOf r.1 = 0x73#7 ∧ funct3Of r.1 ∈ [1#3, 2#3, 3#3, 5#3, 6#3, 7#3]) := by simp [Machine.rv32System, opcodeOf, funct3Of]
  obtain ⟨hm, h⟩ := key r hr
  obtain ⟨eop, ef⟩ := fields_of_match_funct3 (hm ▸ hw)
  rw [← eop, ← ef] at h
  rcases h with ⟨hop, hf⟩ | ⟨hop, hf⟩
  · exact ⟨_, decodeWord_fence hop hf, rfl⟩
  · exact hasBundle_csr hop hf

theorem hasBundle_of_rv32Rows {r : BitVec 32 × BitVec 32} (hr : r ∈ Machine.rv32Rows) (hw : w &&& r.2 = r.1) : HasBundle w := by
  simp only [Machine.rv32Rows, List.mem_append] at hr
  rcases hr with (((hr | hr) | hr) | hr) | hr
  · exact hasBundle_of_rv32Jumps hr hw
  · exact hasBundle_of_rv32Memory hr hw
  · exact hasBundle_of_rv32Immediate hr hw
  · exact hasBundle_of_rv32Register hr hw
  · exact hasBundle_of_rv32System hr hw

/-! ### An instruction with a bundle has a word that matches a row -/

/-- The word matches a row of R57. -/
def MatchesRow (w : BitVec 32) : Prop := ∃ r ∈ Machine.rv32Rows, w &&& r.2 = r.1

theorem matchesRow_of_opcode {op : BitVec 7} (hop : opcodeOf w = op)
    (hr : (encR 0#7 0#5 0#5 0#3 0#5 op, 0x0000007F#32) ∈ Machine.rv32Rows) : MatchesRow w :=
  ⟨_, hr, hop ▸ and_mask_opcode w⟩

theorem matchesRow_of_funct3 {op : BitVec 7} {f3 : BitVec 3} (hop : opcodeOf w = op) (hf : funct3Of w = f3)
    (hr : (encR 0#7 0#5 0#5 f3 0#5 op, 0x0000707F#32) ∈ Machine.rv32Rows) : MatchesRow w :=
  ⟨_, hr, hop ▸ hf ▸ and_mask_funct3 w⟩

theorem matchesRow_of_funct7 {op : BitVec 7} {f3 : BitVec 3} {f7 : BitVec 7} (hop : opcodeOf w = op) (hf : funct3Of w = f3)
    (h7 : funct7Of w = f7) (hr : (encR f7 0#5 0#5 f3 0#5 op, 0xFE00707F#32) ∈ Machine.rv32Rows) : MatchesRow w :=
  ⟨_, hr, hop ▸ hf ▸ h7 ▸ and_mask_funct7 w⟩

theorem matchesRow_of_encode {i : Instr} (he : i.encode = .word w) (hi : Machine.isRefusedRow i = false) : MatchesRow w := by
  cases i with
  | lui rd imm | auipc rd imm =>
    obtain rfl := Fetched.word.inj he
    exact matchesRow_of_opcode (opcodeOf_encU ..) (by decide)
  | jal rd imm =>
    obtain rfl := Fetched.word.inj he
    exact matchesRow_of_opcode (opcodeOf_encJ ..) (by decide)
  | beq rs1 rs2 imm | bne rs1 rs2 imm | blt rs1 rs2 imm | bge rs1 rs2 imm | bltu rs1 rs2 imm | bgeu rs1 rs2 imm =>
    obtain rfl := Fetched.word.inj he
    exact matchesRow_of_funct3 (opcodeOf_encB ..) (funct3Of_encB ..) (by decide)
  | sb rs1 rs2 imm | sh rs1 rs2 imm | sw rs1 rs2 imm =>
    obtain rfl := Fetched.word.inj he
    exact matchesRow_of_funct3 (opcodeOf_encS ..) (funct3Of_encS ..) (by decide)
  | jalr rd rs1 imm | lb rd rs1 imm | lh rd rs1 imm | lw rd rs1 imm | lbu rd rs1 imm | lhu rd rs1 imm
  | addi rd rs1 imm | slti rd rs1 imm | sltiu rd rs1 imm | xori rd rs1 imm | ori rd rs1 imm | andi rd rs1 imm
  | fence fm pred succ rs1 rd
  | csrrw rd rs1 csr | csrrs rd rs1 csr | csrrc rd rs1 csr | csrrwi rd z csr | csrrsi rd z csr | csrrci rd z csr =>
    obtain rfl := Fetched.word.inj he
    exact matchesRow_of_funct3 (opcodeOf_encI ..) (funct3Of_encI ..) (by decide)
  | slli rd rs1 sh | srli rd rs1 sh | srai rd rs1 sh
  | add rd rs1 rs2 | sub rd rs1 rs2 | sll rd rs1 rs2 | slt rd rs1 rs2 | sltu rd rs1 rs2 | xor rd rs1 rs2 | srl rd rs1 rs2
  | sra rd rs1 rs2 | or rd rs1 rs2 | and rd rs1 rs2 | mul rd rs1 rs2 | mulh rd rs1 rs2 | mulhsu rd rs1 rs2 | mulhu rd rs1 rs2 =>
    obtain rfl := Fetched.word.inj he
    exact matchesRow_of_funct7 (opcodeOf_encR ..) (funct3Of_encR ..) (funct7Of_encR ..) (by decide)
  | div rd rs1 rs2 | divu rd rs1 rs2 | rem rd rs1 rs2 | remu rd rs1 rs2 | ecall | ebreak | fenceI rd rs1 imm => cases hi
  | _ => cases he

/-- The table of R57 is exactly the words whose instruction has a bundle. -/
theorem matchesRow_iff_hasBundle : MatchesRow w ↔ HasBundle w := by
  constructor
  · rintro ⟨r, hr, hw⟩
    exact hasBundle_of_rv32Rows hr hw
  · rintro ⟨i, hd, hi⟩
    exact matchesRow_of_encode (decodeWord_reads hd).2 hi

end

/-! ### Which instructions are refused -/

namespace Machine

theorem execute_ne_refused (b : Bundle) (s : State) (r : Refusal) : execute b s ≠ .refused r := by
  unfold execute
  repeat' split
  all_goals rintro ⟨⟩

theorem rejectClasses_ne_refused (s : State) (r : Refusal) : rejectClasses s ≠ .refused r := by
  unfold rejectClasses
  split <;> rintro ⟨⟩

/-- An instruction with a bundle is never refused. -/
theorem exec_ne_refused {i : Instr} (hi : isRefusedRow i = false) (s : State) (r : Refusal) : exec i s ≠ .refused r := by
  cases hn : nativeBundle i with
  | none =>
    obtain ⟨b, v1, v2, he⟩ := exec_word_runs hn hi s
    exact he ▸ execute_ne_refused b _ r
  | some b =>
    cases hill : isIllegalRow i with
    | true => exact exec_illegalRow hill s ▸ rejectClasses_ne_refused s r
    | false => exact exec_native hn hill s ▸ execute_ne_refused b s r

/-- Settles O5: a word that matches a row decodes to an instruction with a bundle, and no transaction is a refusal. -/
theorem tableWordsDecode : Obligations.TableWordsDecode := by
  intro w hw
  obtain ⟨i, hd, hi⟩ := matchesRow_iff_hasBundle.mp hw
  exact ⟨i, hd, exec_ne_refused hi⟩

/-- Settles O4: a word that decodes to an instruction with a bundle matches a row, so any other decodes to none or to one of the
seven refused rows. -/
theorem offTableWordsAreRefused : Obligations.OffTableWordsAreRefused := by
  intro w hw
  cases hd : decode (.word w) with
  | error e => exact .inl ⟨e, rfl⟩
  | ok i =>
    cases hi : isRefusedRow i with
    | true =>
      obtain ⟨n, hn⟩ := exec_refusedRow hi
      exact .inr ⟨i, n, rfl, hn⟩
    | false =>
      obtain ⟨r, hr, hm⟩ := matchesRow_iff_hasBundle.mpr ⟨i, hd, hi⟩
      exact absurd hm (hw r hr)

end Machine
end Sys2Proof
end

section
/-! SUPPORT. The RV32 mapping settled: the register-register operations, the jumps and branches, the loads and stores, the constant
that li loads, and the ALU's table (R47, R51, R57, R59). -/

namespace Sys2Proof.Machine

/-! ### The ALU's table (R47, R51) -/

/-- Settles O7: the operand forms by the two flags, then the result that each selector code picks. -/
theorem computeTable : Obligations.ComputeTable := by
  intro b p
  refine ⟨?op1, ?op2, rfl, rfl, rfl, rfl, rfl, rfl, rfl, rfl, rfl, ?lti, ?ltu, rfl, rfl, rfl, rfl, rfl⟩
  case op1 => cases hp : b.op1Pc <;> cases hi : b.op1Inv <;> simp [operand1, hp, hi]
  case op2 => cases hi : b.op2Imm <;> simp [operand2, hi]
  case lti => exact congrArg Except.ok (boolWord_ltSigned ..)
  case ltu => exact congrArg Except.ok (boolWord_ltUnsigned ..)

/-! ### The register-register operations (R57) -/

/-- The bundle of a row of R57 with two source registers. -/
def regBundle (op : BitVec 4) (rd rs1 rs2 : RegIdx) : Bundle :=
  { emptyBundle with aluOp := op, rd := rd, rs1 := rs1, rs2 := rs2 }

/-- A row with such a bundle delivers the selected operation on `x[rs1]` and `x[rs2]` at `rd`. -/
theorem executeWord_reg {s : State} (hf : s.fatal = false) {op : BitVec 4} {rd rs1 rs2 : RegIdx} {v : Word}
    (hv : aluOf op (s.readReg rs1) (s.readReg rs2) = .ok v) :
    executeWord (regBundle op rd rs1 rs2) s = .next ((s.withOperands (s.readReg rs1) (s.readReg rs2)).afterNone rd v v) :=
  executeWord_none (b := regBundle op rd rs1 rs2) hf rfl rfl hv

/-- Settles O43: each row is the transaction of a bundle without class or branch, whose ALU result is the value stated. -/
theorem rv32RegisterOps : Obligations.Rv32RegisterOps := by
  intro rd rs1 rs2 s hf
  refine ⟨?add, ?sub, ?sll, ?slt, ?sltu, ?xor, ?srl, ?sra, ?or, ?and, ?mul, ?mulh, ?mulhsu, ?mulhu⟩
  case add | sub | sll | xor | srl | sra | or | and => exact executeWord_reg hf rfl
  case slt => exact executeWord_reg hf (congrArg Except.ok (boolWord_ltSigned ..))
  case sltu => exact executeWord_reg hf (congrArg Except.ok (boolWord_ltUnsigned ..))
  case mul => exact executeWord_reg hf (congrArg Except.ok (ofInt_mul_toInt ..))
  case mulh | mulhsu => exact executeWord_reg hf (congrArg Except.ok (high_ofInt _))
  case mulhu => exact executeWord_reg hf (congrArg Except.ok (high_ofNat _ (mul_lt ..)))

/-! ### The jumps and branches (R57) -/

/-- Settles O45 (`rv32Jumps` is the model's list of R57's jump rows): each jump is the transaction of a taken branch
bundle whose ALU adds the base and the offset. -/
theorem rv32Jumps_hold : Obligations.Rv32Jumps := by
  intro rd rs1 off imm s hf
  have hjal : 1#4 ≠ 0#4 := by decide
  have hjalr : 2#4 ≠ 0#4 := by decide
  constructor
  · rw [← readReg_zero s]
    exact execute_branch (s := s.withOperands (s.readReg 0#5) (s.readReg 0#5)) hf rfl rfl hjal rfl
  · rw [← readReg_zero s, ← clearBit0]
    exact execute_branch (s := s.withOperands (s.readReg rs1) (s.readReg 0#5)) hf rfl rfl hjalr rfl

/-- The bundle of a conditional branch of R57: the ALU adds pc and the offset. -/
def branchBundle (op : BitVec 4) (rs1 rs2 : RegIdx) (off : BitVec 13) : Bundle :=
  { emptyBundle with aluOp := 1#4, brOp := op, op1Pc := true, op2Imm := true, rs1 := rs1, rs2 := rs2, imm := sext13 off }

/-- A conditional branch goes to pc plus the offset where its comparison of `x[rs1]` and `x[rs2]` holds (R94 to R99). -/
theorem executeWord_branch {s : State} (hf : s.fatal = false) {op : BitVec 4} {rs1 rs2 : RegIdx} {off : BitVec 13} {tk : Bool}
    (hop : 3 ≤ op.toNat ∧ op.toNat ≤ 8) (ht : takenOf op (s.readReg rs1) (s.readReg rs2) = .ok tk) :
    executeWord (branchBundle op rs1 rs2 off) s = .next ((s.withOperands (s.readReg rs1) (s.readReg rs2)).afterBranch 0#5
      (s.ports.pc + off.signExtend 32) tk true (s.ports.pc + off.signExtend 32)) := by
  have key : ∀ k : BitVec 4, 3 ≤ k.toNat ∧ k.toNat ≤ 8 → k ≠ 0#4 ∧ ¬(k = 1#4 ∨ k = 2#4) ∧ mayRedirect k = true := by decide
  obtain ⟨h0, hjump, hmay⟩ := key op hop
  have h := execute_branch (b := branchBundle op rs1 rs2 off) (s := s.withOperands (s.readReg rs1) (s.readReg rs2))
    (v := s.ports.pc + off.signExtend 32) hf rfl rfl h0 ht
  have htarget : targetOf op (s.ports.pc + off.signExtend 32) = s.ports.pc + off.signExtend 32 :=
    if_neg fun e => hjump (.inr e)
  simp only [branchBundle, hjump, if_false, hmay, htarget] at h
  exact h

/-- Settles O46: each row is the transaction of a conditional branch bundle with its comparison. -/
theorem rv32Branches : Obligations.Rv32Branches := by
  intro rs1 rs2 off s hf
  refine ⟨?beq, ?bne, ?blt, ?bge, ?bltu, ?bgeu⟩
  case beq | blt | bltu => exact executeWord_branch hf (by decide) rfl
  case bne => exact executeWord_branch hf (by decide) (congrArg Except.ok (word_bne ..))
  case bge => exact executeWord_branch hf (by decide) (congrArg Except.ok (not_ltSigned ..))
  case bgeu => exact executeWord_branch hf (by decide) (congrArg Except.ok (not_ltUnsigned ..))

/-! ### The loads and stores (R57) -/

/-- The bundle of a load of R57: the ALU adds `x[rs1]` and the immediate. -/
def loadBundle (f3 : BitVec 3) (rd rs1 : RegIdx) (imm : BitVec 12) : Bundle :=
  { emptyBundle with aluOp := 1#4, op2Imm := true, isLoad := true, func3 := f3, rd := rd, rs1 := rs1, imm := sext12 imm }

/-- A load delivers what `State.load` answers at `x[rs1]` plus the immediate (R104 to R108). -/
theorem executeWord_load {s : State} (hf : s.fatal = false) {f3 : BitVec 3} {rd rs1 : RegIdx} {imm : BitVec 12} {v : Word}
    (hl : s.load f3 (s.readReg rs1 + imm.signExtend 32) = .ok v) :
    executeWord (loadBundle f3 rd rs1 imm) s = .next ((s.withOperands (s.readReg rs1) 0#32).afterNone rd
      (s.readReg rs1 + imm.signExtend 32) v) := by
  rw [← readReg_zero s]
  exact execute_load (s := s.withOperands (s.readReg rs1) (s.readReg 0#5)) hf ⟨rfl, rfl, rfl, rfl⟩ rfl hl

/-- The byte that a zero-filled read of one byte holds. -/
theorem byte_memRead (m : Memory) (a : Word) : (memRead m a .byte).extractLsb' 0 8 = readByte m a := by
  rw [memRead_byte, setWidth_byte]
  obtain ⟨hbyte, _⟩ := extract_append 0#8 0#8 0#8 (readByte m a)
  exact hbyte

/-- The halfword that a zero-filled read of two bytes holds. -/
theorem half_memRead (m : Memory) (a : Word) :
    (memRead m a .half).extractLsb' 0 16 = readByte m (a + 1#32) ++ readByte m a := by
  rw [memRead_half, setWidth_half]
  obtain ⟨_, _, _, _, hlow, _⟩ := extract_append 0#8 0#8 (readByte m (a + 1#32)) (readByte m a)
  exact hlow

/-- Settles O47: each row is the transaction of a load bundle, and the extension of the bytes read is the value stated. -/
theorem rv32Loads : Obligations.Rv32Loads := by
  intro rd rs1 imm s hf a m0 m1 m2 m3 gives
  refine ⟨?lb, ?lh, ?lw, ?lbu, ?lhu⟩
  case lb =>
    have hb : (memRead s.mem a .byte).extractLsb' 0 8 = m0 := byte_memRead s.mem a
    exact executeWord_load hf (congrArg (fun b : Byte => Except.ok (b.signExtend 32)) hb)
  case lh =>
    have hb : (memRead s.mem a .half).extractLsb' 0 16 = m1 ++ m0 := half_memRead s.mem a
    exact executeWord_load hf (congrArg (fun b : BitVec 16 => Except.ok (b.signExtend 32)) hb)
  case lw => exact executeWord_load hf (congrArg Except.ok (memRead_word ..))
  case lbu => exact executeWord_load hf (congrArg Except.ok (memRead_byte ..))
  case lhu => exact executeWord_load hf (congrArg Except.ok (memRead_half ..))

/-- The bundle of a store of R57: the ALU adds `x[rs1]` and the immediate. -/
def storeBundle (f3 : BitVec 3) (rs1 rs2 : RegIdx) (imm : BitVec 12) : Bundle :=
  { emptyBundle with aluOp := 1#4, op2Imm := true, isStore := true, func3 := f3, rs1 := rs1, rs2 := rs2, imm := sext12 imm }

/-- A store puts the low bytes of `x[rs2]` at `x[rs1]` plus the immediate (R110 to R112). -/
theorem executeWord_store {s : State} (hf : s.fatal = false) {f3 : BitVec 3} {rs1 rs2 : RegIdx} {imm : BitVec 12} {w : Width}
    (hw : widthOf f3 = .ok w) : executeWord (storeBundle f3 rs1 rs2 imm) s =
      .next (((s.withOperands (s.readReg rs1) (s.readReg rs2)).storeTo (s.readReg rs1 + imm.signExtend 32) w
        (s.readReg rs2)).afterNone 0#5 (s.readReg rs1 + imm.signExtend 32) (s.readReg rs1 + imm.signExtend 32)) :=
  execute_store (s := s.withOperands (s.readReg rs1) (s.readReg rs2)) hf ⟨rfl, rfl, rfl, rfl⟩ rfl hw

/-- Settles O48: each row is the transaction of a store bundle of its width. -/
theorem rv32Stores : Obligations.Rv32Stores := by
  intro rs1 rs2 imm s hf
  exact ⟨executeWord_store hf rfl, executeWord_store hf rfl, executeWord_store hf rfl⟩

/-! ### The constant of li (R59) -/

/-- The upper part of R59 is bits 31:12 of `v + 0x800`. -/
theorem hi20_eq (v : Word) : hi20 v = (v + 0x800#32).extractLsb' 12 20 := by
  apply BitVec.eq_of_getLsbD_eq
  intro i hi
  rw [hi20, BitVec.getLsbD_extractLsb', BitVec.getLsbD_extractLsb', BitVec.getLsbD_sshiftRight, if_pos (by omega),
    Nat.zero_add, decide_eq_false (show ¬32 ≤ i by omega), Bool.not_false, Bool.true_and]

/-- A value of 12 bits is its own low part, sign-extended. -/
theorem signExtend_of_fits12 {v : Word} (h : fits12 v = true) : (v.extractLsb' 0 12).signExtend 32 = v := by
  have hv := v.isLt
  simp only [fits12, Bool.and_eq_true, decide_eq_true_eq, BitVec.toInt_eq_toNat_cond] at h
  apply BitVec.eq_of_toInt_eq
  rw [BitVec.toInt_signExtend_of_le (by decide), BitVec.toInt_eq_toNat_cond, BitVec.toInt_eq_toNat_cond,
    BitVec.extractLsb'_toNat, Nat.shiftRight_zero]
  omega

/-- The rounding by 0x800 leaves a rest of 12 bits. -/
theorem fits12_rest (v : Word) : fits12 (v - immU (hi20 v)) = true := by
  have hv := v.isLt
  simp only [fits12, Bool.and_eq_true, decide_eq_true_eq, BitVec.toInt_eq_toNat_cond, BitVec.toNat_sub, immU, hi20_eq,
    BitVec.extractLsb'_toNat, BitVec.toNat_add, BitVec.toNat_ofNat, Nat.shiftRight_eq_div_pow]
  omega

/-- The two parts of R59 add up to the constant. -/
theorem hi20_add_lo12 (v : Word) : (hi20 v ++ 0#12) + (lo12 v).signExtend 32 = v := by
  rw [← immU_eq, lo12, signExtend_of_fits12 (fits12_rest v), BitVec.add_comm, BitVec.sub_add_cancel]

/-- A transaction without a branch leaves its value in a destination other than x0. -/
theorem readReg_afterNone (s : State) {rd : RegIdx} (hrd : rd ≠ 0#5) (alu wb : Word) : (s.afterNone rd alu wb).readReg rd = wb := by
  rw [readReg_of_regsWith (s := s) rfl, if_pos ⟨rfl, hrd⟩]

/-- ADDI completes and leaves `x[rs1]` plus the immediate in its destination (R66). -/
theorem exec_addi {s : State} (hf : s.fatal = false) {rd : RegIdx} (hrd : rd ≠ 0#5) (rs1 : RegIdx) (imm : BitVec 12) :
    ∃ t, exec (.addi rd rs1 imm) s = .next t ∧ t.readReg rd = s.readReg rs1 + imm.signExtend 32 :=
  ⟨_, executeWord_imm hf rfl, readReg_afterNone _ hrd _ _⟩

/-- LUI completes and leaves its upper immediate in its destination (R66). -/
theorem exec_lui {s : State} (hf : s.fatal = false) {rd : RegIdx} (hrd : rd ≠ 0#5) (up : BitVec 20) :
    ∃ t, exec (.lui rd up) s = .next t ∧ t.fatal = false ∧ t.readReg rd = up ++ 0#12 := by
  obtain ⟨_, _, _, _, _, _, _, _, _, hlui, _⟩ := rv32ImmediateOps rd 0#5 0#12 0#5 up 0#4 0#4 0#4 s hf
  exact ⟨_, hlui, hf, readReg_afterNone _ hrd _ _⟩

/-- Settles O60: ADDI alone sign-extends a constant of 12 bits, and LUI and ADDI add up the two parts of any other. -/
theorem liLoadsItsConstant : Obligations.LiLoadsItsConstant := by
  intro c rd v s is hf hrd he
  obtain rfl := Option.some.inj he
  have hfits : fits12 v = true ↔ -2048 ≤ v.toInt ∧ v.toInt ≤ 2047 := by simp [fits12]
  rw [expandLi]
  split
  next h =>
    obtain ⟨t, ht, hv⟩ := exec_addi hf hrd 0#5 (v.extractLsb' 0 12)
    refine ⟨(if_pos (hfits.mp h)).symm, t, ?_, ?_⟩
    · simp only [execAll, ht]
    · rw [hv, readReg_zero, signExtend_of_fits12 h]; exact BitVec.zero_add v
  next h =>
    obtain ⟨t, ht, hft, hhi⟩ := exec_lui hf hrd (hi20 v)
    obtain ⟨u, hu, hv⟩ := exec_addi hft hrd rd (lo12 v)
    refine ⟨(if_neg fun hv => h (hfits.mpr hv)).symm, u, ?_, ?_⟩
    · simp only [execAll, ht, hu]
    · rw [hv, hhi, hi20_add_lo12]

end Sys2Proof.Machine
end

section
/-! SUPPORT. The ALU rows of the bundle table settled: the arithmetic and logic rows, the shifts and comparisons, and the multiplies
(40_alu.md R65 to R79). -/

namespace Sys2Proof.Machine

/-- An ALU row with no class flag and no branch delivers the selected operation on operand1 and operand2 at `rd`. -/
theorem execute_asAlu {b : Bundle} {s : State} (hf : s.fatal = false) (hc : b.noClass = true) (hb : b.brOp = 0#4) {k : BitVec 4}
    {v : Word} (hv : aluOf k (operand1 b s.ports) (operand2 b s.ports) = .ok v) :
    execute (b.asAlu k) s = .next (s.afterNone b.rd v v) :=
  execute_none (b := b.asAlu k) hf hc hb hv

/-- Settles O8: each row is its bundle's transaction, and the sum and the difference of words are those of the numbers they
stand for, modulo 2^32. -/
theorem aluArithmeticLogicRows : Obligations.AluArithmeticLogicRows := by
  intro b s hf hc hb x y
  refine ⟨?none, ?add, ?sub, ?and, ?or, ?xor⟩
  case none | and | or | xor => exact execute_asAlu hf hc hb rfl
  case add => exact execute_asAlu hf hc hb (congrArg Except.ok (ofNat_add_toNat x y).symm)
  case sub => exact execute_asAlu hf hc hb (congrArg Except.ok (ofInt_sub_toInt x y).symm)

/-- Settles O9: a shift by `n` is the product with 2^n or the quotient by it, and a comparison's bit is its truth as a word. -/
theorem aluShiftCompareRows : Obligations.AluShiftCompareRows := by
  intro b s hf hc hb x y n sll srl sra lti ltu
  refine ⟨?sll, ?srl, ?sra, ?lti, ?ltu⟩
  case sll => exact execute_asAlu hf hc hb (congrArg Except.ok (shl_eq x n))
  case srl => exact execute_asAlu hf hc hb (congrArg Except.ok (shr_eq x n))
  case sra => exact execute_asAlu hf hc hb (congrArg Except.ok (sra_eq x n))
  case lti => exact execute_asAlu hf hc hb (congrArg Except.ok (boolWord_ltSigned x y))
  case ltu => exact execute_asAlu hf hc hb (congrArg Except.ok (boolWord_ltUnsigned x y))

/-- Settles O10: the low half is the product of the words under either reading, and the high half of the exact product is its
quotient by 2^32. -/
theorem aluMultiplyRows : Obligations.AluMultiplyRows := by
  intro b s hf hc hb x y mul mulh mulhsu mulhu
  refine ⟨?agree, ?mul, ?mulh, ?mulhsu, ?mulhu⟩
  case agree => exact (ofInt_mul_toInt x y).trans (ofNat_mul_toNat x y).symm
  case mul => exact execute_asAlu hf hc hb rfl
  case mulh => exact execute_asAlu hf hc hb (congrArg Except.ok (high_ofInt (x.toInt * y.toInt)))
  case mulhsu => exact execute_asAlu hf hc hb (congrArg Except.ok (high_ofInt (x.toInt * y.toNat)))
  case mulhu => exact execute_asAlu hf hc hb (congrArg Except.ok (high_ofNat (x.toNat * y.toNat) (mul_lt x y)))

end Sys2Proof.Machine
end

section
/-! SUPPORT. The branch unit settled: the branch rows of the bundle table, the redirect under either policy, and the instruction that
is executed next (41_branch.md R81 to R99). -/

namespace Sys2Proof.Machine

/-! ### The branch rows (R91 to R99) -/

/-- Settles O12: both rows are the transaction of a bundle with neither a class flag nor a branch. -/
theorem noneAndPassRows : Obligations.NoneAndPassRows := by
  intro b s v hf hc hb hv
  exact ⟨execute_none (b := b.asBr 0#4) hf hc rfl hv, execute_none (b := b.asPass) hf rfl hb hv⟩

/-- A branch row with no class flag is a branch transaction with the row's selector. -/
theorem execute_asBr {b : Bundle} {s : State} {v : Word} {k : BitVec 4} {tk : Bool} (hf : s.fatal = false) (hc : b.noClass = true)
    (hv : compute b s.ports = .ok v) (hk : k ≠ 0#4) (ht : takenOf k s.ports.rs1Value s.ports.rs2Value = .ok tk) :
    execute (b.asBr k) s = .next (s.afterBranch b.rd (if k = 1#4 ∨ k = 2#4 then fallthroughOf s.ports.pc else v) tk
      (mayRedirect k) (targetOf k v)) :=
  execute_branch (b := b.asBr k) hf hc hv hk ht

/-- Settles O13: JAL links pc + 4, jumps to the ALU result and is no op that FALLTHROUGH_COMPARE redirects for. -/
theorem jalRow : Obligations.JalRow := by
  intro b s v hf hc hv
  exact execute_asBr hf hc hv (by decide) rfl

/-- Settles O14: JALR links pc + 4, jumps to the ALU result with bit 0 cleared and may redirect. -/
theorem jalrRow : Obligations.JalrRow := by
  intro b s v hf hc hv
  rw [← clearBit0]
  exact execute_asBr hf hc hv (by decide) rfl

/-- A conditional branch row delivers the ALU result at `rd` and goes there where its comparison holds. -/
theorem execute_asBr_conditional {b : Bundle} {s : State} {v : Word} {k : BitVec 4} {tk : Bool} (hf : s.fatal = false)
    (hc : b.noClass = true) (hv : compute b s.ports = .ok v) (hk : 3 ≤ k.toNat ∧ k.toNat ≤ 8)
    (ht : takenOf k s.ports.rs1Value s.ports.rs2Value = .ok tk) :
    execute (b.asBr k) s = .next (s.afterBranch b.rd v tk true v) := by
  have key : ∀ k : BitVec 4, 3 ≤ k.toNat ∧ k.toNat ≤ 8 → k ≠ 0#4 ∧ k ≠ 1#4 ∧ k ≠ 2#4 ∧ mayRedirect k = true := by decide
  obtain ⟨h0, h1, h2, hmay⟩ := key k hk
  simp only [execute_asBr hf hc hv h0 ht, h1, h2, or_self, if_false, hmay, targetOf]

/-- Settles O15: each row is a conditional branch transaction with its comparison of the two source values. -/
theorem conditionalBranchRows : Obligations.ConditionalBranchRows := by
  intro b s v hf hc hv x y
  refine ⟨?beq, ?bne, ?blt, ?bge, ?bltu, ?bgeu⟩
  case beq | blt | bltu => exact execute_asBr_conditional hf hc hv (by decide) rfl
  case bne => exact execute_asBr_conditional hf hc hv (by decide) (congrArg Except.ok (word_bne x y))
  case bge => exact execute_asBr_conditional hf hc hv (by decide) (congrArg Except.ok (not_ltSigned x y))
  case bgeu => exact execute_asBr_conditional hf hc hv (by decide) (congrArg Except.ok (not_ltUnsigned x y))

/-! ### The redirect outputs of a transaction (R85, R86) -/

/-- A transaction without a branch drives what Resolve answers for `br_op` = NONE. -/
theorem afterNone_redirectOf (s : State) (rd : RegIdx) (alu wb : Word) :
    ((s.afterNone rd alu wb).out.redirect, (s.afterNone rd alu wb).out.redirectPc) =
      redirectOf s.cfg.redirectPolicy 0#4 false alu s.ports := by
  cases hp : s.cfg.redirectPolicy <;> simp [State.afterNone, redirectOf, mayRedirect, hp]

/-- A branch or jump drives what Resolve answers for its op, outcome and target. -/
theorem afterBranch_redirectOf (s : State) (rd : RegIdx) (wb : Word) (op : BitVec 4) (taken : Bool) (target : Word) :
    ((s.afterBranch rd wb taken (mayRedirect op) target).out.redirect,
        (s.afterBranch rd wb taken (mayRedirect op) target).out.redirectPc) =
      redirectOf s.cfg.redirectPolicy op taken target s.ports := by
  cases hp : s.cfg.redirectPolicy <;> simp [State.afterBranch, redirectOf, hp]

/-- What an instruction drives: `taken` by its op, and the redirect that Resolve answers for it, the target being its own where it
is taken. -/
theorem exec_resolves {i : Instr} {s t : State} (h : exec i s = .next t) :
    ∃ v1 v2 target, takenOf (branchOpOf i) v1 v2 = .ok t.out.taken ∧ (t.out.taken = true → jumpTargetOf i s = some target) ∧
      (t.out.redirect, t.out.redirectPc) = redirectOf s.cfg.redirectPolicy (branchOpOf i) t.out.taken target s.ports := by
  obtain ⟨v1, v2, v, _, ⟨h0, _, wb, rfl⟩ | ⟨h0, w, _, rfl⟩ | ⟨_, _, hj, tk, ht, rfl⟩⟩ := exec_cases h
  · exact ⟨v1, v2, v, h0 ▸ rfl, nofun, h0 ▸ afterNone_redirectOf (s.withOperands v1 v2) ..⟩
  · exact ⟨v1, v2, v, h0 ▸ rfl, nofun, h0 ▸ afterNone_redirectOf ((s.withOperands v1 v2).storeTo v w v2) ..⟩
  · exact ⟨v1, v2, _, ht, fun _ => hj, afterBranch_redirectOf (s.withOperands v1 v2) ..⟩

/-- Settles O17: Resolve drives the actual next pc, and redirects where it is not the one fetched. -/
theorem redirectUnderPredictionCompare : Obligations.RedirectUnderPredictionCompare := by
  intro i s t hp h
  obtain ⟨v1, v2, target, _, hjump, hout⟩ := exec_resolves h
  simp only [hp, redirectOf, Prod.mk.injEq] at hout
  obtain ⟨hredirect, hpc⟩ := hout
  refine ⟨?redirects, fun hn => ?notTaken, fun ht => ?taken⟩
  case redirects => rw [hredirect, hpc, bne_iff_ne]
  case notTaken => simp only [hpc, hn, Bool.false_eq_true, if_false, fallthroughOf]
  case taken => simp only [hjump ht, hpc, ht, if_true]

/-- An op that resolves may redirect where it is neither NONE nor JAL (R85). -/
theorem mayRedirect_iff {op : BitVec 4} {v1 v2 : Word} {tk : Bool} (h : takenOf op v1 v2 = .ok tk) :
    mayRedirect op = true ↔ 2 ≤ op.toNat := by
  have key : ∀ k : BitVec 4, k.toNat < 9 → (mayRedirect k = true ↔ 2 ≤ k.toNat) := by decide
  refine key op (not_le.mp fun h9 => ?_)
  rw [takenOf_reserved h9] at h
  cases h

/-- Settles O16: Resolve drives the target, and redirects where the op may, is taken and the target is not pc + 4. -/
theorem redirectUnderFallthroughCompare : Obligations.RedirectUnderFallthroughCompare := by
  intro i s t hp h
  obtain ⟨v1, v2, target, htaken, _, hout⟩ := exec_resolves h
  simp only [hp, redirectOf, Prod.mk.injEq] at hout
  obtain ⟨hredirect, hpc⟩ := hout
  rw [hredirect, hpc, Bool.and_eq_true, Bool.and_eq_true, mayRedirect_iff htaken, bne_iff_ne, and_assoc, fallthroughOf]

/-! ### The redirect action (R87) -/

/-- A transaction without a branch redirects fetch to what it drives on `redirect_pc`. -/
theorem afterNone_fetchPc_redirectPc (s : State) (rd : RegIdx) (alu wb : Word) : (s.afterNone rd alu wb).fetchPc =
    if (s.afterNone rd alu wb).out.redirect then (s.afterNone rd alu wb).out.redirectPc else s.fetchPc := by
  cases hp : s.cfg.redirectPolicy <;> simp [State.afterNone, hp]

/-- A branch or jump redirects fetch to what it drives on `redirect_pc`: FALLTHROUGH_COMPARE redirects a taken one only. -/
theorem afterBranch_fetchPc_redirectPc (s : State) (rd : RegIdx) (wb : Word) (taken may : Bool) (target : Word) :
    (s.afterBranch rd wb taken may target).fetchPc =
      if (s.afterBranch rd wb taken may target).out.redirect then (s.afterBranch rd wb taken may target).out.redirectPc
      else s.fetchPc := by
  cases hp : s.cfg.redirectPolicy with
  | predictionCompare => simp [State.afterBranch, hp]
  | fallthroughCompare => cases taken <;> simp [State.afterBranch, hp]

/-- What an instruction does to fetch: the three effects together where it redirects, none of them where it does not. -/
theorem exec_redirectAction {i : Instr} {s t : State} (h : exec i s = .next t) :
    t.out.flush = t.out.redirect ∧ t.fetchPc = (if t.out.redirect then t.out.redirectPc else s.fetchPc) ∧
      t.inflight = (if t.out.redirect then [] else s.inflight) ∧
      t.fetchStall = if t.out.redirect then false else s.fetchStall := by
  obtain ⟨v1, v2, v, _, ⟨_, _, wb, rfl⟩ | ⟨_, w, _, rfl⟩ | ⟨_, _, _, tk, _, rfl⟩⟩ := exec_cases h
  · exact ⟨rfl, afterNone_fetchPc_redirectPc (s.withOperands v1 v2) .., rfl, rfl⟩
  · exact ⟨rfl, afterNone_fetchPc_redirectPc ((s.withOperands v1 v2).storeTo v w v2) .., rfl, rfl⟩
  · exact ⟨rfl, afterBranch_fetchPc_redirectPc (s.withOperands v1 v2) .., rfl, rfl⟩

/-- Settles O18: `redirect` alone decides each of the three effects. -/
theorem redirectIsIndivisible : Obligations.RedirectIsIndivisible := by
  intro i s t h
  obtain ⟨hflush, hpc, hinflight, hstall⟩ := exec_redirectAction h
  refine ⟨hflush, fun hr => ?redirects, fun hr => ?goesOn⟩
  case redirects => rw [hpc, hinflight, hstall, hr]; exact ⟨rfl, rfl, rfl⟩
  case goesOn => rw [hpc, hinflight, hstall, hr]; exact ⟨rfl, rfl, rfl⟩

/-! ### The instruction executed next (R155 to R157) -/

/-- The instruction executed after a transaction is at `redirect_pc` where it redirects, and the next one fetched where not. -/
theorem exec_nextFetched {i : Instr} {s t : State} (h : exec i s = .next t) :
    t.nextFetched = if t.out.redirect then t.out.redirectPc else s.nextFetched := by
  obtain ⟨_, hpc, hinflight, _⟩ := exec_redirectAction h
  exact nextFetched_after hpc hinflight

/-- The ports of an issued instruction hold its pc and the pc of the next one fetched (R86). -/
theorem portsFor_pc (s : State) (d : InFlight) : (s.portsFor d).pc = d.pc ∧ (s.portsFor d).predNextPc = s.nextFetched := by
  obtain ⟨pc, bundle | word, source⟩ := d <;> exact ⟨rfl, rfl⟩

/-- The next instruction to execute is the oldest in flight. -/
theorem nextFetched_cons {s : State} {d : InFlight} {ds : List InFlight} (h : s.inflight = d :: ds) : s.nextFetched = d.pc := by
  rw [State.nextFetched, h]

/-- A step that runs an instruction executes the oldest in flight of a state `u` whose oldest is the one that `s` is to execute next;
`u` has the configuration of `s`, and where the in-flight words of `s` form a chain, so do those of `u`. -/
theorem step_executes_oldest {s t : State}
    (hi : s.schedule = [] ∧ (s.fetchStall = false ∨ s.inflight ≠ []) ∨ (∃ rest, s.schedule = .execute :: rest) ∧ s.inflight ≠ [])
    (h : step s = .next t) : ∃ (u : State) (d : InFlight) (ds : List InFlight) (i : Instr), u.inflight = d :: ds ∧
      d.pc = s.nextFetched ∧ u.cfg = s.cfg ∧ (s.fallthroughStream → u.fallthroughStream) ∧ decode d.item = .ok i ∧
      exec i (u.dropOldest.issue d) = .next t := by
  obtain ⟨u, hne, hnext, hrun, hu⟩ := step_executes hi h
  obtain ⟨h0, _⟩ | ⟨d, ds, i, hd, _, hdec, he⟩ := runOldest_next hrun
  · exact absurd h0 hne
  have hpc : d.pc = s.nextFetched := (nextFetched_cons hd).symm.trans hnext
  refine ⟨u, d, ds, i, hd, hpc, ?cfg, ?stream, hdec, he⟩
  case cfg => rcases hu with ⟨_, rfl⟩ | rfl <;> rfl
  case stream =>
    rcases hu with ⟨_, rfl⟩ | rfl
    · exact id
    · exact fetchItem_fallthroughStream _ _

/-- Settles O57: `pred_next_pc` is the pc of what fetch delivers next, so a transaction either goes on there or redirects. -/
theorem sequentialUnderPredictionCompare : Obligations.SequentialUnderPredictionCompare := by
  intro s t hp hsched h
  obtain ⟨u, d, ds, i, _, holdest, hcfg, _, _, he⟩ := step_executes_oldest hsched h
  obtain ⟨hpc, hpred⟩ := portsFor_pc u.dropOldest d
  obtain ⟨hredirect, hnotTaken, _⟩ := redirectUnderPredictionCompare i (u.dropOldest.issue d) t (hcfg ▸ hp) he
  rw [State.issue_ports, hpred] at hredirect
  rw [State.issue_ports, hpc, holdest] at hnotTaken
  refine ⟨?_, hnotTaken⟩
  rw [exec_nextFetched he]
  split
  next => rfl
  next hr => exact (not_not.mp (mt hredirect.mpr hr)).symm

/-- An RV32 instruction whose `br_op` is JAL is the row JAL. -/
theorem jal_of_branchOp {i : Instr} {w : BitVec 32} (he : i.encode = .word w) (hb : branchOpOf i = 1#4) :
    ∃ rd off, i = .jal rd off := by
  cases i with
  | jal rd off => exact ⟨rd, off, rfl⟩
  | _ => simp [Instr.encode, branchOpOf, nativeBundle] at he hb

/-- A word whose `br_op` is JAL has the opcode of JAL. -/
theorem opcodeOf_of_jalOp {w : BitVec 32} {i : Instr} (hd : decodeWord w = .ok i) (hb : branchOpOf i = 1#4) :
    opcodeOf w = 0x6F#7 := by
  obtain ⟨_, he⟩ := encodeDecodeRoundTrip (.word w) i hd
  obtain ⟨rd, off, rfl⟩ := jal_of_branchOp he hb
  obtain rfl : encJ off rd 0x6F#7 = w := Fetched.word.inj he
  exact opcodeOf_encJ ..

/-- JAL is taken, and drives its pc-relative target under FALLTHROUGH_COMPARE (R85, R92). -/
theorem exec_jal {rd : RegIdx} {off : BitVec 21} {s t : State} (hp : s.cfg.redirectPolicy = .fallthroughCompare)
    (h : exec (.jal rd off) s = .next t) : t.out.taken = true ∧ t.out.redirectPc = s.ports.pc + sext21 off := by
  obtain ⟨v1, v2, target, htaken, hjump, hout⟩ := exec_resolves h
  have ht : t.out.taken = true := (Except.ok.inj htaken).symm
  simp only [hp, redirectOf, Prod.mk.injEq] at hout
  exact ⟨ht, hout.2.trans (Option.some.inj (hjump ht)).symm⟩

/-- Only a branch or jump is taken (R91). -/
theorem branchOp_of_taken {i : Instr} {s t : State} (h : exec i s = .next t) (ht : t.out.taken = true) : branchOpOf i ≠ 0#4 := by
  obtain ⟨v1, v2, target, htaken, _⟩ := exec_resolves h
  intro h0
  rw [h0, ht] at htaken
  cases htaken

/-- Under FALLTHROUGH_COMPARE a word that does not redirect is followed by its successor in the stream: the target of a JAL, to which
fetch was steered, and for any other word pc + 4 (R90). -/
theorem exec_word_successor {w : BitVec 32} {i : Instr} {s t : State} (hp : s.cfg.redirectPolicy = .fallthroughCompare)
    (hd : decodeWord w = .ok i) (h : exec i s = .next t) (hr : t.out.redirect = false) :
    wordSuccessor s.ports.pc w = if t.out.taken then t.out.redirectPc else s.ports.pc + 4#32 := by
  by_cases hop : opcodeOf w = 0x6F#7
  · obtain rfl := Except.ok.inj (hd.symm.trans (decodeWord_jal hop))
    obtain ⟨ht, hpc⟩ := exec_jal hp h
    rw [wordSuccessor, if_pos hop, if_pos ht, hpc]
  · rw [wordSuccessor, if_neg hop, fallthroughOf]
    split
    next ht =>
      have h0 := branchOp_of_taken h ht
      have h1 : branchOpOf i ≠ 1#4 := fun hb => hop (opcodeOf_of_jalOp hd hb)
      have h2 : 2 ≤ (branchOpOf i).toNat := by bv_omega
      have hiff := redirectUnderFallthroughCompare i s t hp h
      by_contra hne
      simp [hr, h2, ht, Ne.symm hne] at hiff
    next => rfl

/-- The oldest word of a chain is followed by its successor. -/
theorem nextFetched_of_chain {s : State} {d : InFlight} {ds : List InFlight} (hc : s.fetchChain = true)
    (hd : s.inflight = d :: ds) : ∃ w, d.item = .word w ∧ wordSuccessor d.pc w = s.dropOldest.nextFetched := by
  rw [State.fetchChain, hd] at hc
  obtain ⟨pc, b | w, source⟩ := d
  · simp [chained] at hc
  · refine ⟨w, rfl, ?_⟩
    simp only [chained, Bool.and_eq_true, beq_iff_eq] at hc
    rw [hc.1, State.nextFetched, State.dropOldest_inflight, hd]
    cases ds <;> rfl

/-- Settles O59: a redirect goes to the target of a taken branch, and without one the chain goes on at the word's successor. -/
theorem sequentialWordsUnderFallthrough : Obligations.SequentialWordsUnderFallthrough := by
  intro s t hk hp hj hc hsched h
  obtain ⟨u, d, ds, i, hd, holdest, hcfg, hstream, hdec, he⟩ := step_executes_oldest hsched h
  obtain ⟨_, _, hchain⟩ := hstream ⟨hk, hj, hc⟩
  obtain ⟨w, hw, hsucc⟩ := nextFetched_of_chain hchain hd
  have hp' : (u.dropOldest.issue d).cfg.redirectPolicy = .fallthroughCompare := hcfg ▸ hp
  have hpc : (u.dropOldest.issue d).ports.pc = d.pc := (portsFor_pc u.dropOldest d).1
  rw [exec_nextFetched he, ← holdest]
  cases hr : t.out.redirect with
  | true =>
    obtain ⟨_, ht, _⟩ := (redirectUnderFallthroughCompare i _ t hp' he).mp hr
    rw [if_pos rfl, if_pos ht]
  | false =>
    have hfollow := exec_word_successor hp' (hw ▸ hdec) he hr
    rw [hpc, hsucc] at hfollow
    rwa [if_neg Bool.false_ne_true]

end Sys2Proof.Machine
end

section
/-! SUPPORT. The load and store rows of the bundle table settled: the value each load delivers, the access each store makes, and
where a store's bytes go (42_loadstore.md R103 to R114). -/

namespace Sys2Proof.Machine

/-! ### The load rows (R104 to R109) -/

/-- A load row delivers at `rd` what `State.load` answers for its `func3` at the ALU result. -/
theorem execute_asLoad {b : Bundle} {s : State} {a v : Word} {f : BitVec 3} (hf : s.fatal = false)
    (ha : compute b s.ports = .ok a) (hl : s.load f a = .ok v) : execute (b.asLoad f) s = .next (s.afterNone b.rd a v) :=
  execute_load (b := b.asLoad f) hf ⟨rfl, rfl, rfl, rfl⟩ ha hl

/-- A load row with a reserved width code stops. -/
theorem execute_asLoad_error {b : Bundle} {s : State} {a : Word} {f : BitVec 3} {c : FatalCause} (hf : s.fatal = false)
    (ha : compute b s.ports = .ok a) (hw : widthOf f = .error c) : execute (b.asLoad f) s = raiseFatal c :=
  execute_load_error (b := b.asLoad f) hf ⟨rfl, rfl, rfl, rfl⟩ ha hw

/-- `func3` = 0 sign-extends the byte at the address (R104). -/
theorem load_lb (s : State) (a : Word) : s.load 0#3 a = .ok ((readByte s.mem a).signExtend 32) :=
  congrArg (fun m : Byte => Except.ok (m.signExtend 32)) (byte_memRead s.mem a)

/-- `func3` = 1 sign-extends the halfword at the address (R105). -/
theorem load_lh (s : State) (a : Word) :
    s.load 1#3 a = .ok ((readByte s.mem (a + 1#32) ++ readByte s.mem a).signExtend 32) :=
  congrArg (fun m : BitVec 16 => Except.ok (m.signExtend 32)) (half_memRead s.mem a)

/-- Settles O20: each row is the transaction of a load bundle, whose width code picks the read and whose `func3` the extension;
the codes 3 and 7 pick no width. -/
theorem loadRows : Obligations.LoadRows := by
  intro b s a hf ha m0 m1 m2 m3
  refine ⟨?lb, ?lh, ?lw, ?lbu, ?lhu, ?f36, ?reserved3, ?reserved7⟩
  case lb => exact execute_asLoad hf ha (load_lb s a)
  case lh => exact execute_asLoad hf ha (load_lh s a)
  case lw | f36 => exact execute_asLoad hf ha (congrArg Except.ok (memRead_word s.mem a))
  case lbu => exact execute_asLoad hf ha (congrArg Except.ok (memRead_byte s.mem a))
  case lhu => exact execute_asLoad hf ha (congrArg Except.ok (memRead_half s.mem a))
  case reserved3 | reserved7 => exact execute_asLoad_error hf ha rfl

/-! ### The store rows (R110 to R113) -/

/-- Whatever `func3[2]` is, a store row's width is the one that its two bits of `func3` select (R113). -/
theorem widthOf_asStore_func3 (b : Bundle) (f : BitVec 2) : widthOf (b.asStore f).func3 = widthOf (f.setWidth 3) := by
  have h : ∀ (g : BitVec 3) (f : BitVec 2), widthOf ((g &&& 4#3) ||| f.setWidth 3) = widthOf (f.setWidth 3) := by decide
  exact h b.func3 f

/-- A store row makes one store of its width at the ALU result. -/
theorem execute_asStore {b : Bundle} {s : State} {a : Word} {f : BitVec 2} {w : Width} (hf : s.fatal = false)
    (ha : compute b s.ports = .ok a) (hw : widthOf (f.setWidth 3) = .ok w) :
    execute (b.asStore f) s = .next ((s.storeTo a w s.ports.rs2Value).afterNone b.rd a a) :=
  execute_store (b := b.asStore f) hf ⟨rfl, rfl, rfl, rfl⟩ ha ((widthOf_asStore_func3 b f).trans hw)

/-- Settles O21: each row is the transaction of a store bundle of its width. -/
theorem storeRows : Obligations.StoreRows := by
  intro b s a hf ha
  exact ⟨execute_asStore hf ha rfl, execute_asStore hf ha rfl, execute_asStore hf ha rfl⟩

/-! ### Where a store's bytes go (R114) -/

/-- The console range as an interval of integers. -/
theorem inConsole_iff (c : Config) (a : Word) :
    Config.inConsole c a = true ↔ c.mmioBase.toNat ≤ a.toNat ∧ a.toNat < c.mmioBase.toNat + c.mmioSize := by
  simp only [Config.inConsole, Bool.and_eq_true, decide_eq_true_eq]

/-- A store whose start address lies in the console range adds one console write; any other leaves the bytes of a `memWrite`. -/
theorem storeTo_routed (s : State) {a v : Word} {w : Width} {bytes : List Byte} {m : Word → Byte} (hb : bytesOf v w = bytes)
    (hm : ∀ x, readByte (memWrite s.mem a w v) x = m x) :
    if s.cfg.mmioBase.toNat ≤ a.toNat ∧ a.toNat < s.cfg.mmioBase.toNat + s.cfg.mmioSize then
      (s.storeTo a w v).mem = s.mem ∧ (s.storeTo a w v).console = s.console ++ [bytes]
    else (s.storeTo a w v).console = s.console ∧ ∀ x, readByte (s.storeTo a w v).mem x = m x := by
  rw [State.storeTo_mem, State.storeTo_console]
  split
  next hc =>
    have hin := (inConsole_iff s.cfg a).mpr hc
    exact ⟨if_pos hin, by rw [if_pos hin, hb]⟩
  next hc =>
    have hout : ¬ Config.inConsole s.cfg a = true := mt (inConsole_iff s.cfg a).mp hc
    exact ⟨if_neg hout, by rwa [if_neg hout]⟩

/-- The byte of a word from bit `k` up is the word's quotient by 2^k, modulo 2^8. -/
theorem extract_byte (v : Word) (k : Nat) : v.extractLsb' k 8 = BitVec.ofNat 8 (v.toNat / 2 ^ k) :=
  congrArg (BitVec.ofNat 8) (Nat.shiftRight_eq_div_pow v.toNat k)

/-- Settles O22: each store row makes one store (`storeRows`), which R114 routes; its bytes are the value's quotients by the
powers of 2^8. -/
theorem consoleRouting : Obligations.ConsoleRouting := by
  intro b s a hf ha v b0 b1 b2 b3 routed
  obtain ⟨hsb, hsh, hsw⟩ := storeRows b s a hf ha
  have h0 : v.extractLsb' 0 8 = b0 := rfl
  have h1 : v.extractLsb' 8 8 = b1 := extract_byte v 8
  have h2 : v.extractLsb' 16 8 = b2 := extract_byte v 16
  have h3 : v.extractLsb' 24 8 = b3 := extract_byte v 24
  refine ⟨⟨_, hsb, storeTo_routed s ?sbBytes ?sbMem⟩, ⟨_, hsh, storeTo_routed s ?shBytes ?shMem⟩,
    ⟨_, hsw, storeTo_routed s ?swBytes ?swMem⟩⟩
  case sbBytes | shBytes | swBytes => simp only [bytesOf, v, h0, h1, h2, h3]
  case sbMem => intro x; rw [readByte_memWrite_byte, h0]
  case shMem => intro x; rw [readByte_memWrite_half, h0, h1]
  case swMem => intro x; rw [readByte_memWrite_word, h0, h1, h2, h3]

end Sys2Proof.Machine
end

section
/-! SUPPORT. The CSR file settled: the three classes of address, the access of a CSR bundle, and the six RV32 CSR instructions
(43_csr.md R116 to R120). -/

namespace Sys2Proof.Machine

/-! ### The classes of address (R116) -/

/-- A legal configuration keeps the counter addresses outside CSR_INERT_SET. -/
theorem counterAddr_not_inert {c : Config} {a : Word} (hc : c.wf = true) (ha : a ∈ c.counterAddrs) : a ∉ c.csrInert := by
  simp only [Config.wf, Bool.and_eq_true, List.all_eq_true, Bool.not_eq_true', List.contains_eq_mem, decide_eq_false_iff_not] at hc
  exact hc.2 a ha

/-- A legal configuration has four distinct counter addresses. -/
theorem counterAddrs_nodup {c : Config} (hc : c.wf = true) : [c.cycleLo, c.cycleHi, c.instretLo, c.instretHi].Nodup := by
  simp only [Config.wf, Bool.and_eq_true, decide_eq_true_eq] at hc
  exact hc.1.2

/-! ### CsrRead (R117) -/

theorem csrRead_inert {s : State} {a : Word} (ha : a ∈ s.cfg.csrInert) : s.csrRead a = .ok 0#32 := by
  simp [State.csrRead, ha]

theorem csrRead_unmapped {s : State} {a : Word} (hi : a ∉ s.cfg.csrInert) (hc : a ∉ s.cfg.counterAddrs) :
    s.csrRead a = .error .csrReadUnmapped := by
  simp only [Config.counterAddrs, List.mem_cons, List.not_mem_nil, or_false, not_or] at hc
  simp [State.csrRead, hi, hc]

/-- A half of a counter as a number: its quotient by 2^k, modulo 2^32. -/
theorem extract_half (c : Counter) (k : Nat) : c.extractLsb' k 32 = BitVec.ofNat 32 (c.toNat / 2 ^ k) :=
  congrArg (BitVec.ofNat 32) (Nat.shiftRight_eq_div_pow c.toNat k)

/-- In a legal configuration the four counter addresses read the halves of `cycle` and `instret`. -/
theorem csrRead_counters {s : State} (hc : s.cfg.wf = true) :
    s.csrRead s.cfg.cycleLo = .ok (s.cycle.extractLsb' 0 32) ∧ s.csrRead s.cfg.cycleHi = .ok (s.cycle.extractLsb' 32 32) ∧
      s.csrRead s.cfg.instretLo = .ok (s.instret.extractLsb' 0 32) ∧
      s.csrRead s.cfg.instretHi = .ok (s.instret.extractLsb' 32 32) := by
  have hinert : ∀ a ∈ s.cfg.counterAddrs, a ∉ s.cfg.csrInert := fun a => counterAddr_not_inert hc
  have hdistinct := counterAddrs_nodup hc
  simp only [Config.counterAddrs, List.forall_mem_cons] at hinert
  simp only [List.nodup_cons, List.mem_cons, not_or] at hdistinct
  simp [State.csrRead, hinert, hdistinct, eq_comm]

/-! ### CsrWrite (R118) -/

theorem csrWrite_inert {s : State} {a : Word} (v : Word) (ha : a ∈ s.cfg.csrInert) : s.csrWrite a v = .ok s := by
  simp [State.csrWrite, ha]

theorem csrWrite_counter {s : State} {a : Word} (v : Word) (hi : a ∉ s.cfg.csrInert) (hc : a ∈ s.cfg.counterAddrs) :
    s.csrWrite a v = .error .csrWriteReadonly := by
  simp [State.csrWrite, hi, hc]

theorem csrWrite_unmapped {s : State} {a : Word} (v : Word) (hi : a ∉ s.cfg.csrInert) (hc : a ∉ s.cfg.counterAddrs) :
    s.csrWrite a v = .error .csrWriteUnmapped := by
  simp [State.csrWrite, hi, hc]

/-- Settles O29: the three classes, told apart by the legality of the configuration, with the halves as quotients. -/
theorem csrFile : Obligations.CsrFile := by
  intro s a v hc
  obtain ⟨hcl, hch, hil, hih⟩ := csrRead_counters hc
  refine ⟨?cycleLo, ?cycleHi, ?instretLo, ?instretHi, ?inert, ?counter, ?unmapped⟩
  case cycleLo => rw [hcl, extract_half, pow_zero, Nat.div_one]
  case cycleHi => rw [hch, extract_half]
  case instretLo => rw [hil, extract_half, pow_zero, Nat.div_one]
  case instretHi => rw [hih, extract_half]
  case inert => exact fun ha => ⟨csrRead_inert ha, csrWrite_inert v ha⟩
  case counter => exact fun ha => csrWrite_counter v (counterAddr_not_inert hc ha) ha
  case unmapped => exact fun hi hn => ⟨csrRead_unmapped hi hn, csrWrite_unmapped v hi hn⟩

/-! ### CSR access (R119) -/

/-- At an address that can be read the access answers the old value, except that a differing value at a counter raises a Fatal. -/
theorem csrAccess_of_read {s : State} {a old : Word} (hr : s.csrRead a = .ok old) (new : Word) :
    s.csrAccess a new = if a ∈ s.cfg.csrInert ∨ new = old then .ok (old, s) else .error .csrWriteReadonly := by
  by_cases he : new = old
  · simp [State.csrAccess, hr, he]
  by_cases hi : a ∈ s.cfg.csrInert
  · simp [State.csrAccess, hr, csrWrite_inert new hi, he, hi]
  have hc : a ∈ s.cfg.counterAddrs := by
    by_contra hc
    rw [csrRead_unmapped hi hc] at hr
    cases hr
  simp [State.csrAccess, hr, csrWrite_counter new hi hc, he, hi]

/-- At an unmapped address the access fails on its read. -/
theorem csrAccess_unmapped {s : State} {a : Word} (new : Word) (hi : a ∉ s.cfg.csrInert) (hc : a ∉ s.cfg.counterAddrs) :
    s.csrAccess a new = .error .csrReadUnmapped := by
  simp [State.csrAccess, csrRead_unmapped hi hc]

section
variable {b : Bundle} {s : State} {new old : Word} (hf : s.fatal = false)
  (hb : b.isLoad = false ∧ b.isStore = false ∧ b.isCsr = true ∧ b.brOp = 0#4) (hn : compute b s.ports = .ok new)
include hf hb hn

/-- A CSR transaction at an address that can be read. -/
theorem execute_csr_of_read (hr : s.csrRead b.imm = .ok old) :
    execute b s =
      if b.imm ∈ s.cfg.csrInert ∨ new = old then .next (s.afterNone b.rd new old) else raiseFatal .csrWriteReadonly := by
  have ha := csrAccess_of_read hr new
  split
  next h => exact execute_csr hf hb hn (ha.trans (if_pos h))
  next h => exact execute_csr_error hf hb hn (ha.trans (if_neg h))

/-- A CSR transaction at an unmapped address. -/
theorem execute_csr_unmapped (hi : b.imm ∉ s.cfg.csrInert) (hc : b.imm ∉ s.cfg.counterAddrs) :
    execute b s = raiseFatal .csrReadUnmapped :=
  execute_csr_error hf hb hn (csrAccess_unmapped new hi hc)

end

/-- Settles O30: the row is the transaction of a CSR bundle. -/
theorem csrAccessRow : Obligations.CsrAccessRow := by
  intro b s new old hf hn
  have hb : b.asCsr.isLoad = false ∧ b.asCsr.isStore = false ∧ b.asCsr.isCsr = true ∧ b.asCsr.brOp = 0#4 := ⟨rfl, rfl, rfl, rfl⟩
  refine ⟨?inert, ?unmapped, ?counter⟩
  case inert =>
    intro hi
    exact (execute_csr_of_read hf hb hn (csrRead_inert hi)).trans (if_pos (.inl hi))
  case unmapped => exact execute_csr_unmapped hf hb hn
  case counter =>
    intro hi hr
    exact (execute_csr_of_read hf hb hn hr).trans (if_congr (or_iff_right hi) rfl rfl)

/-! ### The RV32 CSR instructions (R57, R120) -/

/-- The bundle of a row of R57 with a CSR address: the ALU selector that forms the new value, `op1_inv`, and the two registers. -/
def csrBundle (op : BitVec 4) (inv : Bool) (rd rs1 : RegIdx) (csr : BitVec 12) : Bundle :=
  { emptyBundle with aluOp := op, op1Inv := inv, isCsr := true, rd := rd, rs1 := rs1, imm := csrAddr csr }

/-- The address of a CSR word is its field, zero-extended (R56). -/
theorem csrAddr_eq (csr : BitVec 12) : csrAddr csr = csr.setWidth 32 := BitVec.ofNat_toNat ..

/-- At an address that can be read, the rs2 slot holds the old value (R57). -/
theorem csrOperand_of_read {s : State} {a c : Word} (hr : s.csrRead a = .ok c) : s.csrOperand a = c := by
  simp [State.csrOperand, hr]

/-- CSRRS and CSRRSI write where the source sets a bit that is 0: bit by bit, the OR is the old value where it does not. -/
theorem and_not_eq_zero_iff_or_eq (x y : Word) : (x &&& ~~~y != 0#32) = false ↔ x ||| y = y := by
  simp only [bne_eq_false_iff_eq, BitVec.eq_of_getElem_eq_iff]
  refine forall₂_congr fun i hi => ?_
  cases hx : x[i] <;> cases hy : y[i] <;> simp [hx, hy]

/-- CSRRC and CSRRCI write where the source clears a bit that is 1: bit by bit, the AND is the old value where it does not. -/
theorem and_eq_zero_iff_not_and_eq (x y : Word) : (x &&& y != 0#32) = false ↔ ~~~x &&& y = y := by
  simp only [bne_eq_false_iff_eq, BitVec.eq_of_getElem_eq_iff]
  refine forall₂_congr fun i hi => ?_
  cases hx : x[i] <;> cases hy : y[i] <;> simp [hx, hy]

/-- What a row of R120 answers where the addressed CSR holds `c`: `v1` and `v2` are the operand values, `new` the ALU result and
`writes` the row's 'writes when' condition. -/
def csrOutcome (s : State) (csr : BitVec 12) (rd : RegIdx) (c : Word) (writes : Bool) (v1 v2 new : Word) :
    Host.Outcome State Fault Refusal :=
  if csr.setWidth 32 ∈ s.cfg.csrInert ∨ writes = false then .next ((s.withOperands v1 v2).afterNone rd new c)
  else raiseFatal .csrWriteReadonly

section
variable {s : State} (hf : s.fatal = false) {rd rs1 : RegIdx} {csr : BitVec 12}
include hf

/-- The transaction of a `csrBundle` at an unmapped address. -/
theorem execute_csrBundle_unmapped (hi : csr.setWidth 32 ∉ s.cfg.csrInert) (hc : csr.setWidth 32 ∉ s.cfg.counterAddrs)
    {op : BitVec 4} {inv : Bool} {v1 v2 new : Word} (hn : aluOf op (if inv then ~~~v1 else v1) v2 = .ok new) :
    execute (csrBundle op inv rd rs1 csr) (s.withOperands v1 v2) = raiseFatal .csrReadUnmapped := by
  rw [← csrAddr_eq] at hi hc
  exact execute_csr_unmapped (b := csrBundle op inv rd rs1 csr) (s := s.withOperands v1 v2) hf ⟨rfl, rfl, rfl, rfl⟩ hn hi hc

variable {c : Word} (hr : s.csrRead (csr.setWidth 32) = .ok c)
include hr

/-- The transaction of a `csrBundle` at an address that can be read, where `writes` says that the new value differs from the old one. -/
theorem execute_csrBundle {op : BitVec 4} {inv writes : Bool} {v1 v2 new : Word}
    (hn : aluOf op (if inv then ~~~v1 else v1) v2 = .ok new) (hw : writes = false ↔ new = c) :
    execute (csrBundle op inv rd rs1 csr) (s.withOperands v1 v2) = csrOutcome s csr rd c writes v1 v2 new := by
  rw [csrOutcome, ← csrAddr_eq]
  rw [← csrAddr_eq] at hr
  exact (execute_csr_of_read (b := csrBundle op inv rd rs1 csr) (s := s.withOperands v1 v2) hf ⟨rfl, rfl, rfl, rfl⟩ hn hr).trans
    (if_congr (or_congr_right hw.symm) rfl rfl)

/-- CSRRW and CSRRWI: the source is the new value. -/
theorem execute_csrReplace (v : Word) :
    execute (csrBundle 4#4 false rd rs1 csr) (s.withOperands v 0#32) = csrOutcome s csr rd c (v != c) v 0#32 v :=
  execute_csrBundle hf hr (congrArg Except.ok BitVec.or_zero) bne_eq_false_iff_eq

/-- CSRRS and CSRRSI: the source's bits are set in the old value. -/
theorem execute_csrSet (v : Word) :
    execute (csrBundle 4#4 false rd rs1 csr) (s.withOperands v (s.csrOperand (csrAddr csr))) =
      csrOutcome s csr rd c (v &&& ~~~c != 0#32) v c (v ||| c) := by
  rw [csrAddr_eq, csrOperand_of_read hr]
  exact execute_csrBundle hf hr rfl (and_not_eq_zero_iff_or_eq v c)

/-- CSRRC and CSRRCI: the source's bits are cleared in the old value. -/
theorem execute_csrClear (v : Word) :
    execute (csrBundle 3#4 true rd rs1 csr) (s.withOperands v (s.csrOperand (csrAddr csr))) =
      csrOutcome s csr rd c (v &&& c != 0#32) v c (~~~v &&& c) := by
  rw [csrAddr_eq, csrOperand_of_read hr]
  exact execute_csrBundle hf hr rfl (and_eq_zero_iff_not_and_eq v c)

end

/-- Settles O31: the rows with a register and the rows with an immediate are the same three transactions of a CSR bundle, with that
source; none of them reaches its write at an unmapped address. -/
theorem rv32CsrResults : Obligations.Rv32CsrResults := by
  intro rd rs1 z csr s hf a x zv
  have hz : zv = BitVec.ofNat 32 z.toNat := (BitVec.ofNat_toNat ..).symm
  clear_value zv
  subst hz
  refine ⟨?mapped, ?unmapped⟩
  case mapped =>
    intro c hr done
    refine ⟨?csrrw, ?csrrs, ?csrrc, ?csrrwi, ?csrrsi, ?csrrci⟩
    case csrrw | csrrwi => exact execute_csrReplace hf hr _
    case csrrs | csrrsi => exact execute_csrSet hf hr _
    case csrrc | csrrci => exact execute_csrClear hf hr _
  case unmapped =>
    intro hi hc
    refine ⟨?csrrw, ?csrrs, ?csrrc, ?csrrwi, ?csrrsi, ?csrrci⟩
    case csrrw | csrrs | csrrwi | csrrsi => exact execute_csrBundle_unmapped hf hi hc (op := 4#4) (inv := false) rfl
    case csrrc | csrrci => exact execute_csrBundle_unmapped hf hi hc (op := 3#4) (inv := true) rfl

end Sys2Proof.Machine
end

section
/-! SUPPORT. The branch predictor settled: the tables' indices and tags, what Predict answers and what Update changes, and the history
over a run of Updates (44_predictor.md R124 to R132). -/

namespace Sys2Proof.Machine

/-! ### The BTB's index and tag (R125) -/

/-- The tag is the part of a pc's bits 31:2 above the index. -/
theorem btbTag_toNat_above_index (c : Config) (pc : Word) : (btbTag c pc).toNat = pc.toNat / 4 / 2 ^ c.btbIndexBits := by
  rw [btbTag_toNat, Nat.div_div_eq_div_mul, Nat.pow_add, Nat.mul_comm]

/-- Settles O37: the index is the remainder and the tag the quotient of bits 31:2 by 2^B, which together are the number itself. -/
theorem indexTagDeterminePc : Obligations.IndexTagDeterminePc := by
  intro c pc pc' hc
  refine ⟨btbIndex_toNat hc pc, btbTag_toNat c pc, btbTag_lt hc pc, ?_⟩
  rw [← BitVec.toNat_inj, ← BitVec.toNat_inj, btbIndex_toNat hc, btbIndex_toNat hc, btbTag_toNat_above_index,
    btbTag_toNat_above_index, and_comm]
  exact (Nat.ext_div_mod_iff (2 ^ c.btbIndexBits) _ _).symm

/-! ### Predict (R126, R132) -/

/-- A counter of at least 2 and a valid entry with the pc's tag predict the entry's target (R126). -/
theorem predict_gshare {s : State} (h : s.cfg.predictor = .gshare) (pc : Word) :
    s.predict pc =
      if 2 ≤ (s.readBht (bhtIndex s.cfg pc s.bhr)).toNat ∧ (s.readBtb (btbIndex s.cfg pc)).valid = true ∧
          (s.readBtb (btbIndex s.cfg pc)).tag = btbTag s.cfg pc
      then (s.readBtb (btbIndex s.cfg pc)).target else fallthroughOf pc := by
  simp only [State.predict, h, BitVec.le_def, ite_and, Bool.and_eq_true, beq_iff_eq]
  rfl

/-- Settles O33: the counter and the entry that Predict looks at are those at the index values, and tags agree as numbers do. -/
theorem predictGshare : Obligations.PredictGshare := by
  intro s pc hc hg counter entry
  have hcounter : s.readBht (bhtIndex s.cfg pc s.bhr) = counter :=
    congrArg (Sparse.get s.cfg.bhtInit · s.bht) (bhtIndex_toNat hc pc s.bhr)
  have hentry : s.readBtb (btbIndex s.cfg pc) = entry :=
    congrArg (Sparse.get BtbEntry.empty · s.btb) (btbIndex_toNat hc pc)
  simp only [predict_gshare hg, hcounter, hentry, ← btbTag_toNat, BitVec.toNat_inj, fallthroughOf]

/-- The fallthrough predictor answers the next word's pc (R132). -/
theorem predict_fallthrough {s : State} (h : s.cfg.predictor = .fallthrough) (pc : Word) : s.predict pc = pc + 4#32 := by
  simp only [State.predict, h, fallthroughOf]

/-- Settles O34: the fallthrough predictor answers pc + 4, and only GSHARE has tables to update. -/
theorem fallthroughPredictor : Obligations.FallthroughPredictor := by
  intro s pc n u taken hf
  exact ⟨(predict_fallthrough hf pc).trans (ofNat_add_toNat pc 4#32).symm, update_none (.inr hf) pc n taken⟩

/-! ### Update (R127 to R130) -/

section
variable {s : State} (hg : s.cfg.predictor = .gshare) (pc n : Word)
include hg

/-- An Update steps the one counter it looks at (R128). -/
theorem get_update_bht (taken : Bool) (k : Nat) :
    Sparse.get s.cfg.bhtInit k (s.update true pc n taken).bht =
      if k = (bhtIndex s.cfg pc s.bhr).toNat then saturate (s.readBht (bhtIndex s.cfg pc s.bhr)) taken
      else Sparse.get s.cfg.bhtInit k s.bht := by
  simp only [update_gshare hg, Sparse.get_set]

/-- An Update with a taken outcome installs the pc's entry at the install index (R129). -/
theorem get_update_btb_taken (k : Nat) :
    Sparse.get BtbEntry.empty k (s.update true pc n true).btb =
      if k = (btbInstallIndex s.cfg pc s.bhr).toNat then { valid := true, tag := btbTag s.cfg pc, target := n }
      else Sparse.get BtbEntry.empty k s.btb := by
  simp only [update_gshare hg, if_true, Sparse.get_set]

/-- An Update with an outcome not taken installs nothing (R129). -/
theorem update_btb_notTaken : (s.update true pc n false).btb = s.btb := by
  rw [update_gshare hg]
  rfl

/-- An Update shifts its outcome into the history (R130). -/
theorem update_bhr_toNat (hc : s.cfg.wf = true) (taken : Bool) :
    (s.update true pc n taken).bhr.toNat = (2 * s.bhr.toNat + taken.toNat) % 2 ^ s.cfg.histBits := by
  have := Config.wf_bounds hc
  rw [update_gshare hg]
  exact shiftIn_toNat (by omega) s.bhr taken

end

/-- An Update writes nothing but the predictor's tables and history. -/
theorem update_frame (s : State) (u : Bool) (pc n : Word) (taken : Bool) :
    s.update u pc n taken = { s with
      bht := (s.update u pc n taken).bht, btb := (s.update u pc n taken).btb, bhr := (s.update u pc n taken).bhr } := rfl

/-- Settles O35: one counter steps, one entry is installed on a taken outcome, and the history takes in the outcome. -/
theorem updateEffects : Obligations.UpdateEffects := by
  intro s pc n taken hc hg u j i old
  have hj : j = (bhtIndex s.cfg pc s.bhr).toNat := (bhtIndex_toNat hc pc s.bhr).symm
  have hi : i = (btbInstallIndex s.cfg pc s.bhr).toNat := (btbInstallIndex_toNat hc pc s.bhr).symm
  have hold : old = s.readBht (bhtIndex s.cfg pc s.bhr) := congrArg (Sparse.get s.cfg.bhtInit · s.bht) hj
  refine ⟨?counter, fun k hk => ?otherCounters, fun ht => ?installed, fun k hk => ?otherEntries,
    update_bhr_toNat hg pc n hc taken, update_frame s true pc n taken⟩
  case counter => rw [hold, ← saturate_toNat, get_update_bht hg, if_pos hj]
  case otherCounters => rw [get_update_bht hg, if_neg (hj ▸ hk)]
  case installed =>
    subst ht
    rw [get_update_btb_taken hg, if_pos hi, btbTag, shr_eq]
  case otherEntries =>
    cases taken with
    | false => exact congrArg (Sparse.get BtbEntry.empty k) (update_btb_notTaken hg pc n)
    | true =>
      have hk : k ≠ i := hk.resolve_left nofun
      rw [get_update_btb_taken hg, if_neg (hi ▸ hk)]

/-! ### Where the installed entry is looked up (R131) -/

/-- XOR with `y` leaves a number's low `n` bits as they are exactly where those of `y` are 0. -/
theorem xor_mod_two_pow_eq_mod_iff (x y n : Nat) : x % 2 ^ n = (x ^^^ y) % 2 ^ n ↔ y % 2 ^ n = 0 := by
  rw [Nat.xor_mod_two_pow, eq_comm, xor_left_eq_self_iff]

/-- Under XOR_HISTORY the pc's lookup index is its install index exactly where the masked history is 0. -/
theorem btbIndex_eq_installIndex_iff {c : Config} (hc : c.wf = true) (hx : c.btbInstall = .xorHistory) (pc bhr : Word) :
    (btbIndex c pc).toNat = (btbInstallIndex c pc bhr).toNat ↔ bhr.toNat % 2 ^ c.btbIndexBits = 0 := by
  rw [btbIndex_toNat hc, btbInstallIndex_toNat hc, hx]
  exact xor_mod_two_pow_eq_mod_iff ..

/-- Settles O38: the lookup finds the installed entry where the two indices agree, and the entry it found before where not. -/
theorem installedEntryLookup : Obligations.InstalledEntryLookup := by
  intro s pc n hc hg hx u
  have hindex := btbIndex_eq_installIndex_iff hc hx pc s.bhr
  have hread := get_update_btb_taken hg pc n (btbIndex s.cfg pc).toNat
  refine ⟨fun h0 => ?zero, fun h0 => ?nonzero⟩
  case zero => exact hread.trans (if_pos (hindex.mpr h0))
  case nonzero => exact hread.trans (if_neg (mt hindex.mp h0))

/-! ### The history over a run of Updates (R130) -/

/-- Updates of the branches in `calls`, each a pc and its next pc, all with one outcome. -/
def State.updates (s : State) (taken : Bool) (calls : List (Word × Word)) : State :=
  calls.foldl (fun u c => u.update true c.1 c.2 taken) s

@[simp] theorem State.updates_nil (s : State) (taken : Bool) : s.updates taken [] = s := rfl

@[simp] theorem State.updates_cons (s : State) (taken : Bool) (c : Word × Word) (calls : List (Word × Word)) :
    s.updates taken (c :: calls) = (s.update true c.1 c.2 taken).updates taken calls := rfl

/-- A history that has taken in an outcome has H bits. -/
theorem updates_bhr_lt {s : State} (hc : s.cfg.wf = true) (hg : s.cfg.predictor = .gshare) (taken : Bool)
    {calls : List (Word × Word)} (hne : calls ≠ []) : (s.updates taken calls).bhr.toNat < 2 ^ s.cfg.histBits := by
  induction calls generalizing s with
  | nil => exact absurd rfl hne
  | cons c calls ih =>
    cases calls with
    | nil =>
      rw [State.updates_cons, State.updates_nil, update_bhr_toNat hg _ _ hc]
      exact Nat.mod_lt _ (Nat.two_pow_pos _)
    | cons d calls => exact ih (s := s.update true c.1 c.2 taken) hc hg (List.cons_ne_nil d calls)

/-- The history's distance from the one that a run of this outcome leads to (2^H - 1 is -1 modulo 2^H) doubles at each Update. -/
theorem updates_bhr_add_modEq {s : State} (hc : s.cfg.wf = true) (hg : s.cfg.predictor = .gshare) (taken : Bool)
    (calls : List (Word × Word)) :
    (s.updates taken calls).bhr.toNat + taken.toNat ≡ 2 ^ calls.length * (s.bhr.toNat + taken.toNat)
      [MOD 2 ^ s.cfg.histBits] := by
  induction calls generalizing s with
  | nil => rw [State.updates_nil, List.length_nil, Nat.pow_zero, Nat.one_mul]
  | cons c calls ih =>
    have hstep : (s.update true c.1 c.2 taken).bhr.toNat + taken.toNat ≡ 2 * (s.bhr.toNat + taken.toNat)
        [MOD 2 ^ s.cfg.histBits] := by
      rw [update_bhr_toNat hg _ _ hc, show 2 * (s.bhr.toNat + taken.toNat) = 2 * s.bhr.toNat + taken.toNat + taken.toNat by omega]
      exact (Nat.mod_modEq ..).add_right _
    rw [State.updates_cons, List.length_cons, Nat.pow_succ, Nat.mul_assoc]
    exact (ih (s := s.update true c.1 c.2 taken) hc hg).trans (hstep.mul_left _)

/-- Settles O36: after H Updates that distance is a multiple of 2^H, so it is 0. -/
theorem historyAfterRuns : Obligations.HistoryAfterRuns := by
  intro s taken calls hc hg
  refine ⟨fun pc n => update_bhr_toNat hg pc n hc taken, fun hlen => ?run⟩
  have hb := Config.wf_bounds hc
  change (s.updates taken calls).bhr.toNat = _
  have hlt : (s.updates taken calls).bhr.toNat < 2 ^ s.cfg.histBits :=
    updates_bhr_lt hc hg taken (List.ne_nil_of_length_pos (by omega))
  have hdvd : 2 ^ s.cfg.histBits ∣ (s.updates taken calls).bhr.toNat + taken.toNat := by
    have h := updates_bhr_add_modEq hc hg taken calls
    rw [hlen] at h
    exact (h.dvd_iff dvd_rfl).mpr (Nat.dvd_mul_right ..)
  cases taken with
  | false => exact Nat.eq_zero_of_dvd_of_lt hdvd hlt
  | true =>
    have hle := Nat.le_of_dvd (Nat.succ_pos _) hdvd
    simp only [if_true]
    omega

end Sys2Proof.Machine
end

section
/-! SUPPORT. The order of the Fatals settled: which condition of R136 stops a bundle's transaction first (R139), and that a bundle
which meets none completes. -/

namespace Sys2Proof.Machine

/-! ### The first condition of R136 that a bundle meets, by its class -/

/-- A bundle is ill-formed with two class flags, or with a class flag and a branch op (R52). -/
theorem classesLegal_eq_false_iff {b : Bundle} : b.classesLegal = false ↔
    1 < b.isLoad.toNat + b.isStore.toNat + b.isCsr.toNat ∨
      ((b.isLoad = true ∨ b.isStore = true ∨ b.isCsr = true) ∧ b.brOp ≠ 0#4) := by
  cases hl : b.isLoad <;> cases hs : b.isStore <;> cases hc : b.isCsr <;>
    simp [Bundle.classesLegal, Bundle.noClass, hl, hs, hc]

theorem fatalCauseOf_illegal {b : Bundle} (hc : b.classesLegal = false) (s : State) :
    fatalCauseOf b s = some .illegalBundle :=
  if_pos (classesLegal_eq_false_iff.mp hc)

theorem fatalCauseOf_badAluOp {b : Bundle} (hc : b.classesLegal = true) (ha : b.aluOp = 15#4) (s : State) :
    fatalCauseOf b s = some .badAluOp := by
  have hlegal : ¬ b.classesLegal = false := by simp [hc]
  rw [fatalCauseOf, if_neg (mt classesLegal_eq_false_iff.mpr hlegal), if_pos ha]

theorem fatalCauseOf_noClass {b : Bundle} (hn : b.noClass = true) (ha : b.aluOp ≠ 15#4) (s : State) :
    fatalCauseOf b s = if 9 ≤ b.brOp.toNat then some .badBranchOp else none := by
  obtain ⟨hl, hs, hr⟩ := (noClass_iff b).mp hn
  simp [fatalCauseOf, ha, hl, hs, hr]

theorem fatalCauseOf_memory {b : Bundle}
    (hm : b.isLoad = true ∧ b.isStore = false ∨ b.isLoad = false ∧ b.isStore = true) (hr : b.isCsr = false)
    (hbr : b.brOp = 0#4) (ha : b.aluOp ≠ 15#4) (s : State) :
    fatalCauseOf b s = if b.func3.toNat % 4 = 3 then some .badMemWidth else none := by
  rcases hm with ⟨hl, hs⟩ | ⟨hl, hs⟩ <;> simp [fatalCauseOf, ha, hl, hs, hr, hbr]

theorem fatalCauseOf_csr {b : Bundle} (hc : b.isLoad = false ∧ b.isStore = false ∧ b.isCsr = true ∧ b.brOp = 0#4)
    (ha : b.aluOp ≠ 15#4) (s : State) :
    fatalCauseOf b s =
      if b.imm ∉ s.cfg.csrInert ∧ b.imm ∉ s.cfg.counterAddrs then some .csrReadUnmapped
      else if b.imm ∉ s.cfg.csrInert ∧ compute b s.ports ≠ s.csrRead b.imm then some .csrWriteReadonly
      else none := by
  obtain ⟨hl, hs, hr, hbr⟩ := hc
  simp [fatalCauseOf, ha, hl, hs, hr, hbr]

/-! ### What a transaction of each class answers -/

/-- An outcome that is the Fatal of the first condition met, or a next state where none is. -/
def AnswersCause (o : Host.Outcome State Fault Refusal) : Option FatalCause → Prop
  | some c => o = .fault (.fatal c)
  | none => ∃ t, o = .next t

/-- The addresses that can be read are the inert ones and the counters (R117). -/
theorem csrRead_mapped {s : State} {a : Word} (h : a ∈ s.cfg.csrInert ∨ a ∈ s.cfg.counterAddrs) :
    ∃ old, s.csrRead a = .ok old := by
  rcases h with hi | hc
  · exact ⟨_, csrRead_inert hi⟩
  · simp only [Config.counterAddrs, List.mem_cons, List.not_mem_nil, or_false] at hc
    unfold State.csrRead
    split_ifs
    case neg => simp_all
    all_goals exact ⟨_, rfl⟩

section
variable {b : Bundle} {s : State} (hf : s.fatal = false) (ha : b.aluOp ≠ 15#4)
include hf ha

/-- With no class flag only the branch op can fail (R100). -/
theorem execute_noClass_answers (hn : b.noClass = true) : AnswersCause (execute b s) (fatalCauseOf b s) := by
  obtain ⟨v, hv⟩ := aluOf_ok ha (operand1 b s.ports) (operand2 b s.ports)
  rw [fatalCauseOf_noClass hn ha]
  split
  next hb => exact execute_badBranchOp hf (classesLegal_iff.mpr (.inl hn)) ha hb
  next hb =>
    by_cases hbr : b.brOp = 0#4
    · exact ⟨_, execute_none hf hn hbr hv⟩
    · obtain ⟨tk, ht⟩ := takenOf_ok (Nat.lt_of_not_le hb) s.ports.rs1Value s.ports.rs2Value
      exact ⟨_, execute_branch hf hn hv hbr ht⟩

/-- A load or store can fail only by its width (R103). -/
theorem execute_memory_answers (hm : b.isLoad = true ∧ b.isStore = false ∨ b.isLoad = false ∧ b.isStore = true)
    (hr : b.isCsr = false) (hbr : b.brOp = 0#4) : AnswersCause (execute b s) (fatalCauseOf b s) := by
  obtain ⟨a, hv⟩ := aluOf_ok ha (operand1 b s.ports) (operand2 b s.ports)
  have hw := widthOf_eq b.func3
  rw [fatalCauseOf_memory hm hr hbr ha]
  split
  next h3 =>
    rw [if_pos h3] at hw
    rcases hm with ⟨hl, hs⟩ | ⟨hl, hs⟩
    · exact execute_load_error hf ⟨hl, hs, hr, hbr⟩ hv hw
    · exact execute_store_error hf ⟨hl, hs, hr, hbr⟩ hv hw
  next h3 =>
    rw [if_neg h3] at hw
    rcases hm with ⟨hl, hs⟩ | ⟨hl, hs⟩
    · exact ⟨_, execute_load hf ⟨hl, hs, hr, hbr⟩ hv (by rw [State.load, hw])⟩
    · exact ⟨_, execute_store hf ⟨hl, hs, hr, hbr⟩ hv hw⟩

/-- A CSR access fails on the read of an unmapped address, or else on the write of a differing value to a counter (R119). -/
theorem execute_csr_answers (hc : b.isLoad = false ∧ b.isStore = false ∧ b.isCsr = true ∧ b.brOp = 0#4) :
    AnswersCause (execute b s) (fatalCauseOf b s) := by
  obtain ⟨new, hv⟩ := aluOf_ok ha (operand1 b s.ports) (operand2 b s.ports)
  rw [← compute_eq] at hv
  rw [fatalCauseOf_csr hc ha]
  split
  next hu => exact execute_csr_unmapped hf hc hv hu.1 hu.2
  next hu =>
    obtain ⟨old, hr⟩ := csrRead_mapped (s := s) (or_iff_not_and_not.mpr hu)
    have hx := execute_csr_of_read hf hc hv hr
    have hdiff : b.imm ∉ s.cfg.csrInert ∧ compute b s.ports ≠ s.csrRead b.imm ↔ ¬(b.imm ∈ s.cfg.csrInert ∨ new = old) := by
      simp [hv, hr]
    split
    next hw => exact hx.trans (if_neg (hdiff.mp hw))
    next hw => exact ⟨_, hx.trans (if_pos (not_not.mp (mt hdiff.mpr hw)))⟩

end

/-- Settles O39: the classes are checked before Compute and Compute stops at the reserved ALU selector; past both, each class of
bundle has its own conditions left. -/
theorem fatalPriority : Obligations.FatalPriority := by
  intro b s hf
  rw [exec_classify]
  change AnswersCause (execute b s) (fatalCauseOf b s)
  cases hc : b.classesLegal with
  | false =>
    rw [fatalCauseOf_illegal hc, execute_illegal hc]
    exact rejectClasses_of_running hf
  | true =>
  by_cases ha : b.aluOp = 15#4
  · rw [fatalCauseOf_badAluOp hc ha]
    exact execute_badAluOp hf hc ha
  rcases classesLegal_iff.mp hc with hn | ⟨hbr, ⟨hl, hs, hr⟩ | ⟨hl, hs, hr⟩ | ⟨hl, hs, hr⟩⟩
  · exact execute_noClass_answers hf ha hn
  · exact execute_memory_answers hf ha (.inl ⟨hl, hs⟩) hr hbr
  · exact execute_memory_answers hf ha (.inr ⟨hl, hs⟩) hr hbr
  · exact execute_csr_answers hf ha ⟨hl, hs, hr, hbr⟩

end Sys2Proof.Machine
end

section
/-! SUPPORT. Reset settled: the values it gives the block's state (R149), and the machine's invariant right after it. -/

namespace Sys2Proof.Machine

/-! ### The tables after reset -/

/-- An empty table is in canonical form: it lists no key and no entry. -/
@[simp] theorem Sparse.wf_nil {β : Type} [DecidableEq β] (d : β) (n : Nat) : Sparse.wf d n [] = true := rfl

/-- Reset lists no BTB entry, so each one reads as invalid (R21). -/
@[simp] theorem resetWith_btb_get (c : Config) (k : Nat) : Sparse.get BtbEntry.empty k (State.resetWith c).btb = BtbEntry.empty :=
  Sparse.get_nil _ k

/-- Reset lists no BHT counter, so each one reads as BHT_INIT (R22). -/
@[simp] theorem resetWith_bht_get (c : Config) (k : Nat) : Sparse.get c.bhtInit k (State.resetWith c).bht = c.bhtInit :=
  Sparse.get_nil _ k

/-- Settles O53: the predictor's tables read their defaults, and `State.resetWith` writes every other value. -/
theorem resetValues : Obligations.ResetValues := by
  intro c k
  exact ⟨rfl, rfl, rfl, rfl, resetWith_btb_get c k, resetWith_bht_get c k, rfl, rfl, rfl, rfl, rfl⟩

/-! ### The invariant after reset -/

/-- The empty tables are in form, and the history 0 fits every width (R21 to R23). -/
theorem resetWith_predictorOk (c : Config) : (State.resetWith c).predictorOk = true := by
  have hbtb : Sparse.wf BtbEntry.empty (2 ^ c.btbIndexBits) (State.resetWith c).btb = true := Sparse.wf_nil _ _
  have htags : btbTagsFit c (State.resetWith c).btb = true := rfl
  have hbht : Sparse.wf c.bhtInit (2 ^ c.histBits) (State.resetWith c).bht = true := Sparse.wf_nil _ _
  have hbhr : (State.resetWith c).bhr.toNat < 2 ^ c.histBits := Nat.two_pow_pos _
  simp only [State.predictorOk, Bool.and_eq_true, decide_eq_true_eq]
  exact ⟨⟨⟨hbtb, htags⟩, hbht⟩, hbhr⟩

/-- No byte is listed in either memory, and no address is marked as modified. -/
theorem resetWith_memoriesOk (c : Config) : (State.resetWith c).memoriesOk = true :=
  (memoriesOk_iff _).mpr ⟨Sparse.wf_nil _ _, Sparse.wf_nil _ _, Sparse.wf_nil _ _⟩

/-- No Fatal is latched and no cause is named (R25). -/
theorem resetWith_fatalOk (c : Config) : (State.resetWith c).fatalOk = true := rfl

/-- Of the invariant's four parts only the first asks something of the configuration, R9's bounds. -/
theorem resetWith_ok {c : Config} (hc : c.wf = true) : (State.resetWith c).ok = true :=
  (ok_iff _).mpr ⟨hc, resetWith_predictorOk c, resetWith_memoriesOk c, resetWith_fatalOk c⟩

/-- The configuration of the test vectors meets R9's bounds. -/
theorem suggested_wf : Config.suggested.wf = true := by decide

/-- Settles O54: reset meets the invariant in every legal configuration, and `State.reset` is one such reset. -/
theorem resetMeetsInvariant : Obligations.ResetMeetsInvariant :=
  ⟨resetWith_ok suggested_wf, fun _ hc => resetWith_ok hc⟩

end Sys2Proof.Machine
end
